-- ==== Sys2Proof/Word.lean ====
section
/-! DEFINITION. The word types of the block (00_scope.md R7: every value is unsigned; 10_state.md R20 gives the widths). -/

namespace Sys2Proof

/-- A byte of the wire, of the packet buffer or of `DIN` (R7, R50). -/
abbrev Byte := BitVec 8

/-- The width of the CRC register and of a received CRC (00_scope.md R5, `CRC_W`). -/
abbrev Word16 := BitVec 16

/-- An 11-bit offset or length: `OFF`, `N`, `RX_LEN` (20_memory.md R50, 10_state.md R23). -/
abbrev Word11 := BitVec 11

/-- The width of `FSIZE` (00_scope.md R5, `FSIZE_W`). -/
abbrev Word32 := BitVec 32

end Sys2Proof
end

