-- ==== Sys2Proof/Config.lean ====
section
/-! DEFINITION. The parameters of 00_scope.md R5 and the free values. R12: none of them changes during a run, and none of
them is state (10_state.md R40). -/

namespace Sys2Proof.Config

/-! ## Parameters R5 gives one value -/

/-- `CRC_POLY` (R5). -/
def crcPoly : Word16 := 0x1021
/-- `CRC_INIT` (R5; 90_conflicts.md C1: the number wins over the name CCITT-FALSE). -/
def crcInit : Word16 := 0x0000
/-- `CTRL_THRESHOLD` (R5): a shorter unit is a control unit. -/
abbrev ctrlThreshold : Nat := 128
/-- `P128` (R5): payload bytes of the short packet. -/
abbrev p128 : Nat := 128
/-- `P1024` (R5): payload bytes of the long packet. -/
abbrev p1024 : Nat := 1024
/-- `HDR_LEN` (R5): marker, sequence, complement; so the payload begins at this offset. -/
abbrev hdrLen : Nat := 3
/-- `CRC_LEN` (R5): the two trailing CRC bytes. -/
abbrev crcLen : Nat := 2
/-- `BUF_CAP` (R5, 20_memory.md R50): 3 + 1024 + 2 bytes. -/
abbrev bufCap : Nat := hdrLen + p1024 + crcLen
/-- `NAME_MAX` (R5). -/
abbrev nameMax : Nat := 63

/-! ## Control bytes (30_encoding.md R75)

PRESUMED (log 1): but for `'C'`, the source gives no numbers; these are R5's defaults, the opcode table's `match` values. -/

/-- Packet-start marker of the 128-byte packet. -/
def soh : Byte := 0x01
/-- Packet-start marker of the 1024-byte packet. -/
def stx : Byte := 0x02
/-- End-of-transmission. -/
def eot : Byte := 0x04
/-- Acknowledge. -/
def ack : Byte := 0x06
/-- Negative-acknowledge. -/
def nak : Byte := 0x15
/-- Cancel. -/
def can : Byte := 0x18
/-- Checksum-request, the character 'C'. -/
def crq : Byte := 0x43
/-- Abort-by-user, first variant. -/
def abort1 : Byte := 0x41
/-- Abort-by-user, second variant. -/
def abort2 : Byte := 0x61

/-! ## Text code points (30_encoding.md R81) -/

/-- NUL, the end of the file name. -/
def nul : Byte := 0x00
/-- The space character, skipped before the size. -/
def space : Byte := 0x20
/-- The digit '0'. -/
def digit0 : Byte := 0x30
/-- The digit '9'. -/
def digit9 : Byte := 0x39

/-! ## Parameters R5 leaves OPEN -/

/-- The values `ABORT_BYTE` may have (R5, 92_eei_decisions.md D2). -/
inductive AbortChoice where
  | can | abort1 | abort2
  deriving DecidableEq, Repr, Inhabited

/-- What a zero return of `wait` does (R5 `WAIT_ZERO`, D4). -/
inductive WaitZero where
  | skip | abort
  deriving DecidableEq, Repr, Inhabited

/-- The three OPEN parameters, taken as one argument by every function that depends on them. -/
structure Params where
  abortChoice : AbortChoice
  waitZero : WaitZero
  handshakeDelayMs : Nat
  deriving DecidableEq, Repr, Inhabited

/-- `ABORT_BYTE` (R5): the single byte transmitted on abort. -/
def Params.abortByte (p : Params) : Byte :=
  match p.abortChoice with
  | .can => Config.can
  | .abort1 => Config.abort1
  | .abort2 => Config.abort2

/-- The OPEN parameters of this block, uninterpreted: what is proved of it holds for every choice (log 2). -/
opaque params : Params

/-- R5's defaults of the OPEN parameters, for the vectors of 95_test_vectors.md; the machine does not use them. The
delay has no default and no rule depends on it. -/
def defaultParams : Params := ⟨.can, .skip, 0⟩

/-! ## Free values -/

/-- FREE VALUE (log 3): `NAME[i]` for `i ≥ NAME_LEN` after the `k`-th header extraction (42_header_extractor.md R121:
"left unspecified"). -/
opaque freeNameByte : Nat → Nat → Byte

end Sys2Proof.Config
end

