-- ==== Sys2Proof/Syntax.lean ====
section
/-! DEFINITION. The instructions: one constructor per row of spec/opcode_table.json (30_encoding.md R84): nine operations
of the operation port (R79) and nine kinds of wire unit (R70 to R77). -/

namespace Sys2Proof

/-- An operation the port issues, or a unit the adapter delivers.

A control unit is its control byte and the bytes that came after it, which no rule reads (R71). A packet is its marker
and the bytes delivered after the marker: sequence, complement, and the rest from offset 3 on. The rest is whatever the
adapter delivered, whole packet or not, since `RX_LEN` is not checked against the marker (R82). -/
inductive Instr where
  /-- NOP (R79). -/
  | nop
  /-- CRC.CLR (40_crc16.md R92). -/
  | crcClr
  /-- CRC.UPD `DIN` (R93). -/
  | crcUpd (din : Byte)
  /-- CRC.BLK `OFF`, `N` (R94). -/
  | crcBlk (off n : Word11)
  /-- FRAME (41_classifier.md R100). -/
  | frame
  /-- CLASSIFY (R104). -/
  | classify
  /-- TAILCHK (R108). -/
  | tailchk
  /-- HDRX (42_header_extractor.md R120). -/
  | hdrx
  /-- POLL (43_receive_sequencer.md R130). -/
  | poll
  /-- A control unit `EOT` (R75, 41_classifier.md R105). -/
  | eot (extra : List Byte)
  /-- A control unit `ACK`. -/
  | ack (extra : List Byte)
  /-- A control unit `NAK`. -/
  | nak (extra : List Byte)
  /-- A control unit `CAN`. -/
  | can (extra : List Byte)
  /-- A control unit `CRQ`. -/
  | crq (extra : List Byte)
  /-- A control unit `ABORT1`, listed and not accepted (R77). -/
  | abort1 (extra : List Byte)
  /-- A control unit `ABORT2`, listed and not accepted (R77). -/
  | abort2 (extra : List Byte)
  /-- A unit of format PKT128 (R72). -/
  | soh (seq nseq : Byte) (body : List Byte)
  /-- A unit of format PKT1024 (R73). -/
  | stx (seq nseq : Byte) (body : List Byte)
  deriving DecidableEq, Repr

end Sys2Proof
end

