-- ==== Sys2Proof/WellFormed.lean ====
section
/-! DEFINITION. Which instructions are well-formed: the condition each unit row of the opcode table puts on `RX_LEN`
(30_encoding.md R70), and the buffer's capacity (20_memory.md R50). Every value of an operation's operands is an encoding
(R79); an `OFF + N` that leaves the buffer is a refusal of the operation, not of its encoding (40_crc16.md R94). -/

namespace Sys2Proof

/-- Format CTRL: the control byte and the extra bytes together stay below `CTRL_THRESHOLD` (R70 case 1). -/
def wfControl (extra : List Byte) : Bool := decide (1 + extra.length < Config.ctrlThreshold)

/-- Formats PKT128 and PKT1024: at least `CTRL_THRESHOLD` bytes (R70 cases 2, 3) and at most the buffer. -/
def wfPacket (body : List Byte) : Bool :=
  decide (Config.ctrlThreshold ≤ Config.hdrLen + body.length) && decide (Config.hdrLen + body.length ≤ Config.bufCap)

/-- An instruction that some code of the opcode table stands for. -/
def Instr.wf : Instr → Bool
  | .nop | .crcClr | .crcUpd _ | .crcBlk _ _ | .frame | .classify | .tailchk | .hdrx | .poll => true
  | .eot extra | .ack extra | .nak extra | .can extra | .crq extra | .abort1 extra | .abort2 extra => wfControl extra
  | .soh _ _ body | .stx _ _ body => wfPacket body

end Sys2Proof
end

