-- ==== Sys2Proof/Decode.lean ====
section
/-! DEFINITION. Decoding of the two things the block decodes (30_encoding.md): words of the operation port (R79, R80) and
units on the wire (R70 to R77). Then the encoder, written from the same tables, and the rows of the opcode table. -/

namespace Sys2Proof

/-- Format OP (R79): the signals of the operation port for one operation. -/
structure PortWord where
  op : BitVec 4
  din : Byte
  off : Word11
  n : Word11
  deriving DecidableEq, Repr

/-- What the block decodes: a word of the operation port, or the bytes of a unit (`RX_LEN` is their number, R83). -/
inductive Code where
  | port (w : PortWord)
  | unit (bytes : List Byte)
  deriving DecidableEq, Repr

/-- Why a code stands for no row of the opcode table. -/
inductive DecodeError where
  /-- Operation codes 0x9 to 0xF (R80). -/
  | reservedOp (op : BitVec 4)
  /-- A unit of no bytes: there is no first byte to match (93_implementation_defined.md U2). -/
  | emptyUnit
  /-- R76 case 1: a short unit whose byte is no row's. -/
  | unlistedControl (b : Byte)
  /-- R76 case 2: a long unit that begins with no marker. -/
  | notAMarker (b : Byte)
  /-- More bytes than the buffer holds (20_memory.md R50). -/
  | unitTooLong (len : Nat)
  deriving DecidableEq, Repr

/-- The operation port (R79); operands an operation does not name are ignored. -/
def decodePort (w : PortWord) : Except DecodeError Instr :=
  match w.op.toNat with
  | 0x0 => .ok .nop
  | 0x1 => .ok .crcClr
  | 0x2 => .ok (.crcUpd w.din)
  | 0x3 => .ok (.crcBlk w.off w.n)
  | 0x4 => .ok .frame
  | 0x5 => .ok .classify
  | 0x6 => .ok .tailchk
  | 0x7 => .ok .hdrx
  | 0x8 => .ok .poll
  | _ => .error (.reservedOp w.op)

/-- Format CTRL (R71): the first byte names the row; the others are ignored by every rule. -/
def decodeControl (b : Byte) (extra : List Byte) : Except DecodeError Instr :=
  if b = Config.eot then .ok (.eot extra)
  else if b = Config.ack then .ok (.ack extra)
  else if b = Config.nak then .ok (.nak extra)
  else if b = Config.can then .ok (.can extra)
  else if b = Config.crq then .ok (.crq extra)
  else if b = Config.abort1 then .ok (.abort1 extra)
  else if b = Config.abort2 then .ok (.abort2 extra)
  else .error (.unlistedControl b)

/-- Formats PKT128 and PKT1024 (R72, R73): the marker alone selects the format (R70). -/
def decodePacket (b seq nseq : Byte) (body : List Byte) : Except DecodeError Instr :=
  if b = Config.soh then .ok (.soh seq nseq body)
  else if b = Config.stx then .ok (.stx seq nseq body)
  else .error (.notAMarker b)

/-- A unit on the wire: first its length, then its first byte (R70). -/
def decodeUnit (bytes : List Byte) : Except DecodeError Instr :=
  if Config.bufCap < bytes.length then .error (.unitTooLong bytes.length)
  else if bytes.length < Config.ctrlThreshold then
    match bytes with
    | [] => .error .emptyUnit
    | b :: extra => decodeControl b extra
  else
    match bytes with
    | b :: seq :: nseq :: body => decodePacket b seq nseq body
    | b :: _ => .error (.notAMarker b)
    | [] => .error .emptyUnit

/-- The decoder, total on every code. -/
def decode : Code → Except DecodeError Instr
  | .port w => decodePort w
  | .unit bytes => decodeUnit bytes

/-- The port word of operation `op` with the operands it does not name at zero. -/
def portOf (op : BitVec 4) (din : Byte := 0) (off n : Word11 := 0) : Code := .port ⟨op, din, off, n⟩

/-- The encoder, from R79 (operation codes) and R71 to R75 (units in wire order, 20_memory.md R51). -/
def encode : Instr → Code
  | .nop => portOf 0x0
  | .crcClr => portOf 0x1
  | .crcUpd din => portOf 0x2 (din := din)
  | .crcBlk off n => portOf 0x3 (off := off) (n := n)
  | .frame => portOf 0x4
  | .classify => portOf 0x5
  | .tailchk => portOf 0x6
  | .hdrx => portOf 0x7
  | .poll => portOf 0x8
  | .eot extra => .unit (Config.eot :: extra)
  | .ack extra => .unit (Config.ack :: extra)
  | .nak extra => .unit (Config.nak :: extra)
  | .can extra => .unit (Config.can :: extra)
  | .crq extra => .unit (Config.crq :: extra)
  | .abort1 extra => .unit (Config.abort1 :: extra)
  | .abort2 extra => .unit (Config.abort2 :: extra)
  | .soh seq nseq body => .unit (Config.soh :: seq :: nseq :: body)
  | .stx seq nseq body => .unit (Config.stx :: seq :: nseq :: body)

/-! ## The opcode table (R84) -/

/-- The row of spec/opcode_table.json an instruction is an instruction of. -/
def Instr.mnemonic : Instr → String
  | .nop => "NOP"
  | .crcClr => "CRC.CLR"
  | .crcUpd _ => "CRC.UPD"
  | .crcBlk _ _ => "CRC.BLK"
  | .frame => "FRAME"
  | .classify => "CLASSIFY"
  | .tailchk => "TAILCHK"
  | .hdrx => "HDRX"
  | .poll => "POLL"
  | .eot _ => "EOT"
  | .ack _ => "ACK"
  | .nak _ => "NAK"
  | .can _ => "CAN"
  | .crq _ => "CRQ"
  | .abort1 _ => "ABORT1"
  | .abort2 _ => "ABORT2"
  | .soh _ _ _ => "SOH"
  | .stx _ _ _ => "STX"

/-- A unit row of the table: matched on `BUF[0]` under a condition on `RX_LEN`. -/
structure UnitRow where
  mnemonic : String
  /-- The row's `cond`: true for `RX_LEN < 128`, false for `RX_LEN >= 128`. -/
  short : Bool
  value : Byte
  mask : Byte
  deriving DecidableEq, Repr

/-- The nine unit rows, as the table lists them. -/
def unitRows : List UnitRow :=
  [⟨"EOT", true, 0x04, 0xFF⟩, ⟨"ACK", true, 0x06, 0xFF⟩, ⟨"NAK", true, 0x15, 0xFF⟩, ⟨"CAN", true, 0x18, 0xFF⟩,
   ⟨"CRQ", true, 0x43, 0xFF⟩, ⟨"ABORT1", true, 0x41, 0xFF⟩, ⟨"ABORT2", true, 0x61, 0xFF⟩,
   ⟨"SOH", false, 0x01, 0xFF⟩, ⟨"STX", false, 0x02, 0xFF⟩]

/-- R84: "evaluate the row's `cond` on `RX_LEN`; compare `BUF[0] AND mask` with `match`". -/
def UnitRow.fits (r : UnitRow) (len : Nat) (b : Byte) : Bool :=
  r.short == decide (len < Config.ctrlThreshold) && b &&& r.mask == r.value

/-! ## The host's table words -/

/-- The byte values of the seven CTRL rows. -/
def isControlRow (b : Byte) : Bool :=
  unitRows.any fun r => r.short && b == r.value

/-- The `k` bytes of `w` from its least significant one on. -/
def bytesOfNat : Nat → Nat → List Byte
  | 0, _ => []
  | k + 1, w => BitVec.ofNat 8 w :: bytesOfNat k (w / 256)

/-- How many bytes the unit has that a table word of `k` bytes begins: a whole packet behind a marker. -/
def tableUnitLen (k : Nat) (b : Byte) : Nat :=
  if b = Config.soh then Config.hdrLen + Config.p128 + Config.crcLen
  else if b = Config.stx then Config.bufCap
  else k

/-- The code a word of the opcode table stands for. The table numbers the operation port's four bits and a unit's first
byte both from bit 0, and says by `matched_on` alone which of the two a row means; a word does not carry that. DESIGN
CHOICE (log 4): a word of one byte is the control unit of a CTRL row where its value is 16 or more and a CTRL row's, else
the operation of its low four bits; a longer word is a unit, the marker's missing bytes zero. -/
def tableCode (nbits w : Nat) : Code :=
  if nbits ≤ 8 then
    if 16 ≤ w && isControlRow (BitVec.ofNat 8 w) then .unit [BitVec.ofNat 8 w] else portOf (BitVec.ofNat 4 w)
  else .unit (bytesOfNat (tableUnitLen (nbits / 8) (BitVec.ofNat 8 w)) w)

/-- The instruction the decoder reads from a word of the opcode table. -/
def decodeTableWord (nbits w : Nat) : Option Instr :=
  match decode (tableCode nbits w) with
  | .ok i => some i
  | .error _ => none

end Sys2Proof
end

