-- ==== Sys2Proof/Machine/State.lean ====
section
/-! DEFINITION. The state of the block (10_state.md R20: "exactly the following, and nothing else", plus the output traces
of 00_scope.md R11), the inputs that wait for it, and why a step can stop. -/

namespace Sys2Proof.Machine

/-- `SSTATE` (10_state.md R26): five values and no more. -/
inductive SState where
  | idle | handshaking | receiving | awaitEot2 | awaitTail
  deriving DecidableEq, Repr

/-- The packet buffer `BUF` (R22, 20_memory.md R50): the bytes that differ from what an unlisted offset reads as. -/
abbrev Memory := List Host.Cell

/-- One entry of the callback trace `CB` (00_scope.md R8, R11): a call of the sink with its arguments. -/
inductive Callback where
  /-- `AcceptHeader(name, size)` (10_state.md R37). -/
  | acceptHeader (name : List Byte) (size : Word32)
  /-- `AcceptPayload(off, n)`, with what the sink's read port shows of `BUF[off..off+n-1]` during the call (R33, R37). -/
  | acceptPayload (off n : Nat) (region : List Byte)
  /-- `AcceptEnd()` (R37). -/
  | acceptEnd
  deriving DecidableEq, Repr

/-- One output of the operation port (30_encoding.md R79, column "results"): what one transition shows. No operation of R79
shows `META_VALID`, so no output does (log 19). -/
inductive Result where
  /-- The `CRC` register, of CRC.CLR, CRC.UPD and CRC.BLK. -/
  | crc (value : Word16)
  /-- FRAME's `MARKER`, `SEQ`, `NSEQ`, `PLEN`, `RXCRC` (41_classifier.md R100). -/
  | frame (marker seq nseq : Byte) (plen : Word11) (rxcrc : Word16)
  /-- CLASSIFY's `CLS[8:0]` (R107). -/
  | cls (value : BitVec 9)
  /-- TAILCHK's `TAIL_OK` (R108). -/
  | tail (ok : Bool)
  /-- HDRX's `NAME[0..NAME_LEN-1]`, `NAME_LEN`, `FSIZE`, `HDR_OK` (42_header_extractor.md R120). -/
  | hdr (name : List Byte) (nameLen : BitVec 6) (fsize : Word32) (ok : Bool)
  deriving DecidableEq, Repr

/-- The environment's answers (00_scope.md R10 item 4): the free inputs of a POLL or HDRX. -/
structure Env where
  /-- What `wait` returns: zero, or any other number for "proceed" (10_state.md R36). -/
  waitRet : Nat
  hdrRet : Bool
  payRet : Bool
  endRet : Bool
  deriving DecidableEq, Repr

/-- What the outside can do to the block (R10, R83): one stimulus is one step. -/
inductive Stimulus where
  /-- The port's owner issues an operation; `env` answers the calls it makes. -/
  | op (w : PortWord) (env : Env)
  /-- The adapter's `wait` returns `env.waitRet`, and the POLL that called it goes on (43_receive_sequencer.md R132, phase B). -/
  | waitReturn (env : Env)
  /-- The adapter delivers a unit: its bytes, as many as `RX_LEN` will say. -/
  | rx (bytes : List Byte)
  /-- The external trigger sets `SESSION_EN`. -/
  | enable
  /-- The external trigger clears `SESSION_EN`. -/
  | disable
  /-- Reset (70_reset_and_hazards.md R181). -/
  | reset
  deriving DecidableEq, Repr

/-- The state of the block and its two output traces: R20's fields "and nothing else". The results of the standalone
operations are not among them (R40). -/
structure Block where
  /-- `CRC` (10_state.md R21). -/
  crc : Word16
  /-- `BUF[0..1028]` (R22). -/
  buf : Memory
  /-- `RX_LEN` (R23). -/
  rxLen : Word11
  /-- `DATA_READY` (R24). -/
  dataReady : Bool
  /-- `SESSION_EN` (R25). -/
  sessionEn : Bool
  /-- `SSTATE` (R26). -/
  sstate : SState
  /-- `NAME[0..62]` (R27). -/
  name : Vector Byte 63
  /-- `NAME_LEN` (R27). -/
  nameLen : BitVec 6
  /-- `FSIZE` (R28). -/
  fsize : Word32
  /-- `META_VALID` (R29). R20's table names the operation port among its readers, and R79 gives the port no operation that shows
  it: the model has none (DESIGN CHOICE, log 19). -/
  metaValid : Bool
  /-- The trace `TX` of transmitted bytes, the first one first (00_scope.md R11). -/
  tx : List Byte
  /-- The trace `CB` of callback invocations, the first one first (R11). -/
  cb : List Callback
  deriving DecidableEq, Repr

/-- What one step acts on: the block, and the model's own fields around it. -/
structure State extends Block where
  /-- The outputs of the operation port so far, as its owner has seen them. They are outputs of the transitions and not the
  block's state (R40): nothing reads them (log 5). -/
  results : List Result
  /-- The `wait` in progress between the two phases of a Handshaking POLL (R9), with the milliseconds it was asked for
  (log 6). -/
  waiting : Option Nat
  /-- The free inputs of the operation being run (log 7). -/
  env : Env
  /-- The stimuli still to come, the next one first (log 7). -/
  input : List Stimulus
  /-- How many header extractions there were: it picks the free values of `NAME` (log 3). -/
  freeCtr : Nat
  deriving DecidableEq, Repr

/-- A step never faults: "No traps, no fatal condition. ... No operation of the block faults" (60_exceptions.md R160). The
conditions another machine would fault on are ordinary outcomes of POLL (R161 to R164) or refusals. -/
inductive Fault where
  deriving DecidableEq, Repr

/-- Why a step is refused. Each is a case to which the spec gives no meaning; to stop there is safe. -/
inductive Refusal where
  /-- Raised by exec for an instruction that has no meaning yet (none). Safe. -/
  | notModelled (mnemonic : String)
  /-- Raised by the operation port for codes 0x9 to 0xF (30_encoding.md R80; 93_implementation_defined.md U8). Safe. -/
  | reservedOp (op : BitVec 4)
  /-- Raised by CRC.BLK when `OFF + N` > 1029 (40_crc16.md R94; U9). Safe. -/
  | blockOutsideBuffer (off n : Word11)
  /-- Raised by HDRX when `BUF[0]` is not a marker (42_header_extractor.md R120; U10). Safe. -/
  | noPacketInBuffer (marker : Byte)
  /-- Raised by a delivery while `DATA_READY` = 1 (20_memory.md R60; U3, U19). Safe. -/
  | deliveryWhileReady
  /-- Raised by a delivery of more than 1029 bytes (10_state.md R23; U7). Safe. -/
  | unitTooLong (len : Nat)
  /-- Raised by the operation port between the phases of a Handshaking POLL (70_reset_and_hazards.md R190). Safe. -/
  | operationInProgress
  /-- Raised by a return of `wait` that no POLL called (10_state.md R36). Safe. -/
  | noWaitInProgress
  deriving DecidableEq, Repr

/-- The answers of 30_encoding.md R83's notation where a stimulus gives none: `wait` 1, every callback 1. -/
def Env.default : Env := ⟨1, true, true, true⟩

/-- The block right after reset (10_state.md R41, 70_reset_and_hazards.md R180). `BUF`, `RX_LEN`, `NAME` and `FSIZE`, which R41
leaves unspecified, are DESIGN CHOICE zero (logs 8 and 9); `results` to `freeCtr` are the model's own. -/
def State.reset : State where
  crc := Config.crcInit
  buf := []
  rxLen := 0
  dataReady := false
  sessionEn := false
  sstate := .idle
  name := Vector.replicate 63 0
  nameLen := 0
  fsize := 0
  metaValid := false
  tx := []
  cb := []
  results := []
  waiting := none
  env := Env.default
  input := []
  freeCtr := 0

end Sys2Proof.Machine
end

