-- ==== Sys2Proof/Machine/Port.lean ====
section
/-! DEFINITION. The operation of the port that belongs to no unit of the block: NOP (30_encoding.md R79). -/

namespace Sys2Proof.Machine

/-- NOP: "changes no state and produces no output" (R79). -/
def execNop (s : State) : Host.Outcome State Fault Refusal := .next s

end Sys2Proof.Machine
end

