-- ==== Sys2Proof/Machine/Flags.lean ====
section
/-! DEFINITION. The block's flags: `DATA_READY` (10_state.md R24), `SESSION_EN` (R25), `META_VALID` (R29), and `SSTATE` (R26).
"The block has no arithmetic condition codes": no operation computes another flag. -/

namespace Sys2Proof.Machine

/-- POLL consumes a unit: `DATA_READY <- 0` (43_receive_sequencer.md R137). -/
def State.consume (s : State) : State := { s with dataReady := false }

/-- `EN` and `DIS`: the external trigger writes `SESSION_EN` (R25, 30_encoding.md R83). -/
def State.setSessionEn (s : State) (b : Bool) : State := { s with sessionEn := b }

/-- `META_VALID <- 1` (43_receive_sequencer.md R145). -/
def State.openMeta (s : State) : State := { s with metaValid := true }

/-- `SSTATE <- q` (00_scope.md R8). -/
def State.goto (s : State) (q : SState) : State := { s with sstate := q }

/-- What the abort sequence and the end of a session write (43_receive_sequencer.md R135, R136; 90_conflicts.md C5, C7). -/
def State.closeSession (s : State) : State :=
  { s with sessionEn := false, dataReady := false, metaValid := false, sstate := .idle }

/-- The 3-bit encoding of `SSTATE` (R26). -/
def SState.code : SState → BitVec 3
  | .idle => 0
  | .handshaking => 1
  | .receiving => 2
  | .awaitEot2 => 3
  | .awaitTail => 4

end Sys2Proof.Machine
end

