-- ==== Sys2Proof/Machine/Ops.lean ====
section
/-! DEFINITION. The named operations over the buffer, the traces and the collaborators (00_scope.md R8), the adapter's
delivery (20_memory.md R59), and the abort sequence, the block's only "trap entry" (60_exceptions.md R168). It saves
nothing, and there is no return from it (R169). -/

namespace Sys2Proof.Machine

/-- `k c`. The match is for evaluation: the kernel computes the number `c` before `k` sees it, where it would otherwise carry
the unevaluated term through a long fold (`strictly_eq` in Laws/Ops.lean). -/
def strictly {w : Nat} {α : Type} (c : BitVec w) (k : BitVec w → α) : α :=
  match c.toNat with
  | 0 => k 0
  | n + 1 => k (BitVec.ofNat w (n + 1))

/-! ## The packet buffer (20_memory.md) -/

/-- What an offset with no entry reads as. R22 gives no reset value: DESIGN CHOICE zero (log 8). -/
def Memory.unlisted : Byte := 0

/-- The canonical form: offsets strictly rising and below `BUF_CAP`, and no entry that says what no entry says. -/
abbrev Memory.wf (m : Memory) : Prop :=
  m.Pairwise (fun c d => c.1 < d.1) ∧ ∀ c ∈ m, c.2 ≠ Memory.unlisted ∧ c.1 < Config.bufCap

/-- The entries from the first one at `a` or above. -/
def Memory.seek (m : Memory) (a : Nat) : Memory := m.dropWhile fun c => decide (c.1 < a)

/-- The byte at `a`, of entries sought to `a`. -/
def Memory.headAt : Memory → Nat → Byte
  | [], _ => Memory.unlisted
  | (k, v) :: _, a => if k = a then v else Memory.unlisted

/-- `MemRead(a, 1)` (00_scope.md R8): one byte, no side effect (20_memory.md R55). -/
def Memory.read (m : Memory) (a : Nat) : Byte := (m.seek a).headAt a

/-- The bytes at `a`, `a + 1`, …, `n` of them, each what `Memory.read` gives (`Memory.walk_eq` in Laws/Memory.lean), in
one walk. -/
def Memory.walk : Nat → Nat → Memory → List Byte
  | 0, _, _ => []
  | n + 1, a, m => (m.seek a).headAt a :: Memory.walk n (a + 1) (m.seek a)

/-- The entries of the bytes `bytes` from offset `a` on. -/
def Memory.cells : Nat → List Byte → Memory
  | _, [] => []
  | a, b :: bytes => if b = Memory.unlisted then Memory.cells (a + 1) bytes else (a, b) :: Memory.cells (a + 1) bytes

/-- A unit in the buffer (R51, R57): offsets `0..L-1` hold its bytes, the offsets from `L` on what they held. -/
def Memory.overwrite (m : Memory) (bytes : List Byte) : Memory :=
  Memory.cells 0 bytes ++ m.filter fun c => decide (bytes.length ≤ c.1)

/-- `BUF[a]`. -/
def State.byte (s : State) (a : Nat) : Byte := s.buf.read a

/-- `BUF[off..off+n-1]`, read byte by byte (R55): `s.byte off`, `s.byte (off + 1)`, … (`bytes_eq` in Laws/Memory.lean). -/
def State.bytes (s : State) (off n : Nat) : List Byte := Memory.walk n off s.buf

/-! ## The traces -/

/-- `Transmit(bs)` (10_state.md R34): appends to `TX` and changes nothing else. -/
def State.transmit (s : State) (bs : List Byte) : State := { s with tx := s.tx ++ bs }

/-- A call of the sink: appended to `CB` with its arguments (00_scope.md R8). -/
def State.call (s : State) (c : Callback) : State := { s with cb := s.cb ++ [c] }

/-- A result on the operation port (30_encoding.md R79; log 5). -/
def State.emit (s : State) (r : Result) : State := { s with results := s.results ++ [r] }

/-! ## The injected operations (10_state.md R39) -/

/-- `Arm()` (R35, 43_receive_sequencer.md R143): "writes no state of the block and is in neither observable trace". -/
def State.arm (s : State) : State := s

/-- The call of `wait(ms)` (R36). -/
def State.beginWait (s : State) (ms : Nat) : State := { s with waiting := some ms }

/-- `wait` has returned. -/
def State.endWait (s : State) : State := { s with waiting := none }

/-- `ok <- AcceptHeader(name, size)` (R37). -/
def acceptHeader (name : List Byte) (size : Word32) (s : State) : Bool × State :=
  (s.env.hdrRet, s.call (.acceptHeader name size))

/-- `ok <- AcceptPayload(off, n)` (R37): the sink reads the region while the call lasts. -/
def acceptPayload (off n : Nat) (s : State) : Bool × State :=
  (s.env.payRet, s.call (.acceptPayload off n (s.bytes off n)))

/-- `ok <- AcceptEnd()` (R37). -/
def acceptEnd (s : State) : Bool × State := (s.env.endRet, s.call .acceptEnd)

/-! ## The adapter's delivery -/

/-- The unit is in the buffer, `RX_LEN` is its length, and the flag is up, in one step (20_memory.md R59). -/
def State.receive (s : State) (bytes : List Byte) : State :=
  { s with buf := s.buf.overwrite bytes, rxLen := BitVec.ofNat 11 bytes.length, dataReady := true }

/-- One delivery. It is enabled only while `DATA_READY` = 0 (R60), and a conforming adapter delivers no more than the
buffer holds (10_state.md R23). -/
def deliver (bytes : List Byte) (s : State) : Host.Outcome State Fault Refusal :=
  if s.dataReady then .refused .deliveryWhileReady
  else if Config.bufCap < bytes.length then .refused (.unitTooLong bytes.length)
  else .next (s.receive bytes)

/-! ## The abort sequence -/

/-- `Abort()` (43_receive_sequencer.md R136): one abort byte, both flags cleared, back to Idle. -/
def abort (p : Config.Params) (s : State) : State := (s.transmit [p.abortByte]).closeSession

end Sys2Proof.Machine
end

