-- ==== Sys2Proof/Machine/Operands.lean ====
section
/-! DEFINITION. The operands of the block: the fields of the frame in `BUF` (30_encoding.md R70 to R74, 41_classifier.md R101)
and the region operand of CRC.BLK (40_crc16.md R94). The port's own operands `DIN`, `OFF`, `N` are the instruction's. -/

namespace Sys2Proof.Machine

/-- `plen(m)` (R101): the payload length a marker selects; `RX_LEN` plays no part. -/
def plen (m : Byte) : Option Nat :=
  if m = Config.soh then some Config.p128
  else if m = Config.stx then some Config.p1024
  else none

/-- `BUF[0]` (R70). -/
def State.marker (s : State) : Byte := s.byte 0

/-- `SEQ` (R74). -/
def State.seq (s : State) : Byte := s.byte 1

/-- `NSEQ` (R74). -/
def State.nseq (s : State) : Byte := s.byte 2

/-- The `n` payload bytes (R72, R73). -/
def State.payload (s : State) (n : Nat) : List Byte := s.bytes Config.hdrLen n

/-- `RXCRC` behind an `n`-byte payload: big-endian (20_memory.md R52). -/
def State.rxcrc (s : State) (n : Nat) : Word16 := s.byte (Config.hdrLen + n) ++ s.byte (Config.hdrLen + n + 1)

/-- CRC.BLK's operands are legal (40_crc16.md R94). -/
def blockInBuffer (off n : Word11) : Bool := decide (off.toNat + n.toNat ≤ Config.bufCap)

end Sys2Proof.Machine
end

