-- ==== Sys2Proof/Machine/Crc.lean ====
section
/-! DEFINITION. The CRC-16 generator (40_crc16.md): its functions, and CRC.CLR, CRC.UPD, CRC.BLK. -/

namespace Sys2Proof.Machine

/-- One bit step (R90): the high bit is shifted out, and the polynomial XORed in when it was 1. -/
def crcBit (t : Word16) : Word16 := if t.msb then (t <<< 1) ^^^ Config.crcPoly else t <<< 1

/-- `n` bit steps. -/
def crcBits : Nat → Word16 → Word16
  | 0, t => t
  | n + 1, t => crcBits n (crcBit t)

/-- `crc16_update(c, b)` (R90): the byte enters bits 15:8, then eight bit steps. -/
def crc16Update (c : Word16) (b : Byte) : Word16 := crcBits 8 (c ^^^ (b.setWidth 16 <<< 8))

/-- The fold of `crc16_update` over bytes in increasing order, from `c`. -/
def crc16From : List Byte → Word16 → Word16
  | [], c => c
  | b :: bytes, c => strictly (crc16Update c b) (crc16From bytes)

/-- `crc16(s)` (R91): from `CRC_INIT`, no final XOR (R97). -/
def crc16 (bytes : List Byte) : Word16 := crc16From bytes Config.crcInit

/-! ## The other formulations R90 names: "all ... compute the same function" -/

/-- The table-driven form: the register moves a byte up, and the entry of the byte that leaves it is XORed in. -/
def crc16Table (bytes : List Byte) : Word16 :=
  bytes.foldl (fun c b => (c <<< 8) ^^^ crc16Update 0 ((c >>> 8).setWidth 8 ^^^ b)) Config.crcInit

/-- One bit of the message enters a shift register from the right. -/
def shiftIn (r : Word16) (bit : Bool) : Word16 :=
  let t := (r <<< 1) ||| (BitVec.ofBool bit).setWidth 16
  if r.msb then t ^^^ Config.crcPoly else t

/-- A byte enters it, bit 7 first (20_memory.md R53). -/
def shiftInByte (r : Word16) (b : Byte) : Word16 :=
  [7, 6, 5, 4, 3, 2, 1, 0].foldl (fun r k => shiftIn r (b.getLsbD k)) r

/-- The form that "shifts the message in from the right and appends two zero bytes". -/
def crc16Appended (bytes : List Byte) : Word16 := (bytes ++ [0, 0]).foldl shiftInByte Config.crcInit

/-! ## The operations -/

/-- The accumulator is written and shown on the port (R92 to R94). -/
def State.setCrc (s : State) (c : Word16) : State := { s with crc := c }

/-- CRC.CLR (R92). -/
def execCrcClr (s : State) : Host.Outcome State Fault Refusal :=
  .next ((s.setCrc Config.crcInit).emit (.crc Config.crcInit))

/-- CRC.UPD (R93). -/
def execCrcUpd (din : Byte) (s : State) : Host.Outcome State Fault Refusal :=
  .next ((s.setCrc (crc16Update s.crc din)).emit (.crc (crc16Update s.crc din)))

/-- CRC.BLK (R94): from `CRC_INIT`, not from the old `CRC`; refused where the region leaves the buffer. -/
def execCrcBlk (off n : Word11) (s : State) : Host.Outcome State Fault Refusal :=
  if blockInBuffer off n then
    .next ((s.setCrc (crc16 (s.bytes off.toNat n.toNat))).emit (.crc (crc16 (s.bytes off.toNat n.toNat))))
  else .refused (.blockOutsideBuffer off n)

end Sys2Proof.Machine
end

