-- ==== Sys2Proof/Machine/Classifier.lean ====
section
/-! DEFINITION. The frame parser, the packet classifier and the tail check (41_classifier.md): FRAME, CLASSIFY, TAILCHK.
All three read the buffer and write no state (R109). -/

namespace Sys2Proof.Machine

/-- The five control values the classifier accepts (R105). -/
inductive Control where
  | eot | ack | nak | can | crq
  deriving DecidableEq, Repr

/-- The byte of a control value (30_encoding.md R75). -/
def Control.byte : Control → Byte
  | .eot => Config.eot
  | .ack => Config.ack
  | .nak => Config.nak
  | .can => Config.can
  | .crq => Config.crq

/-- The classifier's result (R107): "a sum ... No other result exists". -/
inductive Verdict where
  | ctrl (c : Control)
  | pkt128
  | pkt1024
  | invalid
  deriving DecidableEq, Repr

/-- `CLS[8:0]` (R107). -/
def Verdict.cls : Verdict → BitVec 9
  | .ctrl c => c.byte.setWidth 9
  | .pkt128 => Config.soh.setWidth 9
  | .pkt1024 => Config.stx.setWidth 9
  | .invalid => 0x100

/-- `seq_ok` (R102): a 9-bit sum compared with 255. -/
def State.seqOk (s : State) : Bool := s.seq.setWidth 9 + s.nseq.setWidth 9 == 0x0FF#9

/-- `crc_ok` for an `n`-byte payload (R103). -/
def State.crcOk (s : State) (n : Nat) : Bool := crc16 (s.payload n) == s.rxcrc n

/-- The short branch (R105): only `BUF[0]` is read. -/
def classifyShort (b : Byte) : Verdict :=
  if b = Config.eot then .ctrl .eot
  else if b = Config.ack then .ctrl .ack
  else if b = Config.nak then .ctrl .nak
  else if b = Config.can then .ctrl .can
  else if b = Config.crq then .ctrl .crq
  else .invalid

/-- The long branch (R106): the marker, then both conditions. -/
def classifyLong (s : State) : Verdict :=
  match plen s.marker with
  | none => .invalid
  | some n =>
    if s.seqOk && s.crcOk n then (if s.marker = Config.soh then .pkt128 else .pkt1024) else .invalid

/-- CLASSIFY's function (R104): `RX_LEN` only selects the branch (20_memory.md R56). -/
def classify (s : State) : Verdict :=
  if s.rxLen.toNat < Config.ctrlThreshold then classifyShort s.marker else classifyLong s

/-- TAILCHK's function (R108): no length, no CRC. -/
def tailOk (s : State) : Bool := s.marker == Config.soh && s.seqOk

/-- FRAME's results (R100); `PLEN` and `RXCRC` are zero fillers where `BUF[0]` is no marker (D23). -/
def frameFields (s : State) : Result :=
  match plen s.marker with
  | none => .frame s.marker s.seq s.nseq 0 0
  | some n => .frame s.marker s.seq s.nseq (BitVec.ofNat 11 n) (s.rxcrc n)

/-- FRAME (R100). -/
def execFrame (s : State) : Host.Outcome State Fault Refusal := .next (s.emit (frameFields s))

/-- CLASSIFY (R104). -/
def execClassify (s : State) : Host.Outcome State Fault Refusal := .next (s.emit (.cls (classify s).cls))

/-- TAILCHK (R108). -/
def execTailchk (s : State) : Host.Outcome State Fault Refusal := .next (s.emit (.tail (tailOk s)))

end Sys2Proof.Machine
end

