-- ==== Sys2Proof/Machine/Header.lean ====
section
/-! DEFINITION. The header extractor (42_header_extractor.md): HDRX. -/

namespace Sys2Proof.Machine

/-- The bytes before the first NUL, all of them when there is none; its length is R121's `z`. -/
def nameRun (pay : List Byte) : List Byte := pay.takeWhile fun b => b != Config.nul

/-- The name (R121): at most `NAME_MAX` bytes of the run, unchanged. -/
def headerName (pay : List Byte) : List Byte := (nameRun pay).take Config.nameMax

/-- R122's test `0x30 ≤ b ≤ 0x39`. -/
def isDigit (b : Byte) : Bool := decide (Config.digit0 ≤ b) && decide (b ≤ Config.digit9)

/-- The digits of the size (R122): after the true NUL, behind any spaces, up to the first non-digit or the payload's end. -/
def sizeDigits (pay : List Byte) : List Byte :=
  ((pay.drop ((nameRun pay).length + 1)).dropWhile fun b => b == Config.space).takeWhile isDigit

/-- R122's accumulation, modulo 2^32 at every digit (R125). -/
def decimalFrom : List Byte → Word32 → Word32
  | [], v => v
  | b :: digits, v => strictly (v * 10 + (b - Config.digit0).setWidth 32) (decimalFrom digits)

/-- The file size (R122). -/
def headerSize (pay : List Byte) : Word32 := decimalFrom (sizeDigits pay) 0

/-- `NAME` after an extraction: the name, and free values behind it (R121; log 3). Irreducible, so that comparing two states
does not lay out 63 cells; `nameCells_getElem` in Laws/Header.lean says what it holds. -/
@[irreducible] def nameCells (ctr : Nat) (nm : List Byte) : Vector Byte 63 :=
  Vector.ofFn fun i => if i.val < nm.length then nm.getD i.val 0 else Config.freeNameByte ctr i.val

/-- The writes of HDRX: `NAME`, `NAME_LEN`, `FSIZE` (R124). -/
def State.setHeader (s : State) (nm : List Byte) (size : Word32) : State :=
  { s with
    name := nameCells s.freeCtr nm
    nameLen := BitVec.ofNat 6 nm.length
    fsize := size
    freeCtr := s.freeCtr + 1 }

/-- The extraction from an `n`-byte payload and the one call of `AcceptHeader` after it (R120, R123); the Boolean is the
callback's. -/
def extractHeader (n : Nat) (s : State) : Bool × State :=
  let nm := headerName (s.payload n)
  let size := headerSize (s.payload n)
  acceptHeader nm size (s.setHeader nm size)

/-- HDRX (R120): refused where `BUF[0]` selects no payload. -/
def execHdrx (s : State) : Host.Outcome State Fault Refusal :=
  match plen s.marker with
  | none => .refused (.noPacketInBuffer s.marker)
  | some n =>
    let r := extractHeader n s
    .next (r.2.emit (.hdr (headerName (s.payload n)) r.2.nameLen r.2.fsize r.1))

end Sys2Proof.Machine
end

