-- ==== Sys2Proof/Machine/Sequencer.lean ====
section
/-! DEFINITION. The receive sequencer (43_receive_sequencer.md): POLL, one function per session state. Every function takes the
OPEN parameters as an argument. A Handshaking POLL is two transitions (00_scope.md R9, log 6). -/

namespace Sys2Proof.Machine

/-- State Idle (R131): `DATA_READY` is neither read nor cleared. -/
def pollIdle (s : State) : State := if s.sessionEn then (s.goto .handshaking).arm else s

/-- State Handshaking, phase A (R132): the checksum-request, on every POLL, and the call of `wait`. -/
def handshakeA (p : Config.Params) (s : State) : State := (s.transmit [Config.crq]).beginWait p.handshakeDelayMs

/-- A consumed unit in Handshaking (R132): a valid 128-byte packet opens the session, anything else aborts it. The Boolean of
`AcceptHeader` is discarded (10_state.md R38). -/
def handshakeUnit (p : Config.Params) (s : State) : State :=
  match classify s with
  | .pkt128 => (((extractHeader Config.p128 s).2.openMeta.arm).transmit [Config.ack, Config.crq]).goto .receiving
  | .pkt1024 | .ctrl _ | .invalid => abort p s

/-- State Handshaking, phase B (R132), after `wait` has returned. -/
def handshakeB (p : Config.Params) (s : State) : State :=
  if s.env.waitRet = 0 then
    match p.waitZero with
    | .skip => s
    | .abort => abort p s
  else if s.dataReady then handshakeUnit p s.consume
  else s

/-- State ReceivingData (R133). The Boolean of `AcceptPayload` is discarded (R38), and `n` is never trimmed (D28). -/
def receivePacket (n : Nat) (s : State) : State :=
  ((acceptPayload Config.hdrLen n s).2.arm).transmit [Config.ack]

/-- A consumed unit in ReceivingData (R133). -/
def receivingUnit (p : Config.Params) (s : State) : State :=
  match classify s with
  | .pkt128 => receivePacket Config.p128 s
  | .pkt1024 => receivePacket Config.p1024 s
  | .ctrl .eot => (s.arm.transmit [Config.nak]).goto .awaitEot2
  | .ctrl .ack | .ctrl .nak | .ctrl .can | .ctrl .crq | .invalid => abort p s

/-- A consumed unit in AwaitingSecondEnd (R134). -/
def awaitEot2Unit (p : Config.Params) (s : State) : State :=
  match classify s with
  | .ctrl .eot => (s.arm.transmit [Config.ack, Config.crq]).goto .awaitTail
  | .ctrl .ack | .ctrl .nak | .ctrl .can | .ctrl .crq | .pkt128 | .pkt1024 | .invalid => abort p s

/-- A consumed unit in AwaitingFinalTail (R135): the tail check and not the classifier. Both outcomes close the session. -/
def awaitTailUnit (p : Config.Params) (s : State) : State :=
  if tailOk s then ((acceptEnd (s.transmit [Config.ack])).2).closeSession else abort p s

/-- `consume` (R137): no unit, nothing done; else `DATA_READY` is cleared first. -/
def onUnit (act : State → State) (s : State) : State := if s.dataReady then act s.consume else s

/-- POLL (R130). In Handshaking it is phase A, or phase B when a `wait` is in progress. -/
def poll (p : Config.Params) (s : State) : State :=
  match s.sstate with
  | .idle => pollIdle s
  | .handshaking =>
    match s.waiting with
    | none => handshakeA p s
    | some _ => handshakeB p s.endWait
  | .receiving => onUnit (receivingUnit p) s
  | .awaitEot2 => onUnit (awaitEot2Unit p) s
  | .awaitTail => onUnit (awaitTailUnit p) s

/-- A whole POLL with nothing between its phases (30_encoding.md R83, the line `POLL`): a Handshaking POLL goes on to phase B. -/
def pollWhole (p : Config.Params) (s : State) : State :=
  if (poll p s).waiting.isSome then poll p (poll p s) else poll p s

/-- POLL as an operation, with this block's OPEN parameters. It never faults and is never refused (60_exceptions.md R160). -/
def execPoll (s : State) : Host.Outcome State Fault Refusal := .next (poll Config.params s)

end Sys2Proof.Machine
end

