-- ==== Sys2Proof/Machine/Units.lean ====
section
/-! DEFINITION. The nine unit rows of the opcode table as instructions: the adapter delivers that unit (20_memory.md R59,
30_encoding.md R83 `RX`). What the block makes of the delivered unit is CLASSIFY's, TAILCHK's and POLL's to say. -/

namespace Sys2Proof.Machine

/-- A unit `EOT` arrives (30_encoding.md R71, R75). -/
def execEot (extra : List Byte) (s : State) : Host.Outcome State Fault Refusal := deliver (Config.eot :: extra) s

/-- A unit `ACK` arrives. -/
def execAck (extra : List Byte) (s : State) : Host.Outcome State Fault Refusal := deliver (Config.ack :: extra) s

/-- A unit `NAK` arrives. -/
def execNak (extra : List Byte) (s : State) : Host.Outcome State Fault Refusal := deliver (Config.nak :: extra) s

/-- A unit `CAN` arrives. -/
def execCan (extra : List Byte) (s : State) : Host.Outcome State Fault Refusal := deliver (Config.can :: extra) s

/-- A unit `CRQ` arrives. -/
def execCrq (extra : List Byte) (s : State) : Host.Outcome State Fault Refusal := deliver (Config.crq :: extra) s

/-- A unit `ABORT1` arrives (R77). -/
def execAbort1 (extra : List Byte) (s : State) : Host.Outcome State Fault Refusal := deliver (Config.abort1 :: extra) s

/-- A unit `ABORT2` arrives (R77). -/
def execAbort2 (extra : List Byte) (s : State) : Host.Outcome State Fault Refusal := deliver (Config.abort2 :: extra) s

/-- A unit of format PKT128 arrives (R72), whole or cut short (R82). -/
def execSoh (seq nseq : Byte) (body : List Byte) (s : State) : Host.Outcome State Fault Refusal :=
  deliver (Config.soh :: seq :: nseq :: body) s

/-- A unit of format PKT1024 arrives (R73), whole or cut short (R82). -/
def execStx (seq nseq : Byte) (body : List Byte) (s : State) : Host.Outcome State Fault Refusal :=
  deliver (Config.stx :: seq :: nseq :: body) s

end Sys2Proof.Machine
end

