-- ==== Sys2Proof/Machine/Dispatch.lean ====
section
/-! DEFINITION. The meaning of every instruction: one arm per constructor, one direct call each. -/

namespace Sys2Proof.Machine

def exec (i : Instr) (s : State) : Host.Outcome State Fault Refusal :=
  match i with
  -- the operation port (30_encoding.md R79)
  | .nop => Sys2Proof.Machine.execNop s
  | .crcClr => Sys2Proof.Machine.execCrcClr s
  | .crcUpd din => Sys2Proof.Machine.execCrcUpd din s
  | .crcBlk off n => Sys2Proof.Machine.execCrcBlk off n s
  | .frame => Sys2Proof.Machine.execFrame s
  | .classify => Sys2Proof.Machine.execClassify s
  | .tailchk => Sys2Proof.Machine.execTailchk s
  | .hdrx => Sys2Proof.Machine.execHdrx s
  | .poll => Sys2Proof.Machine.execPoll s
  -- units on the wire (30_encoding.md R70 to R77)
  | .eot extra => Sys2Proof.Machine.execEot extra s
  | .ack extra => Sys2Proof.Machine.execAck extra s
  | .nak extra => Sys2Proof.Machine.execNak extra s
  | .can extra => Sys2Proof.Machine.execCan extra s
  | .crq extra => Sys2Proof.Machine.execCrq extra s
  | .abort1 extra => Sys2Proof.Machine.execAbort1 extra s
  | .abort2 extra => Sys2Proof.Machine.execAbort2 extra s
  | .soh seq nseq body => Sys2Proof.Machine.execSoh seq nseq body s
  | .stx seq nseq body => Sys2Proof.Machine.execStx seq nseq body s

end Sys2Proof.Machine
end

