-- ==== Sys2Proof/Machine/Agents.lean ====
section
/-! DEFINITION. What each agent's stimulus does (00_scope.md R10, 30_encoding.md R83). The operation port and the adapter run
the decoded instruction; the external trigger, the returning `wait` and reset are no instructions of the table. -/

namespace Sys2Proof.Machine

/-- The answers of the environment stand at the block's inputs (log 7). -/
def State.withEnv (s : State) (env : Env) : State := { s with env := env }

/-- The operation port (R79): one operation at a time (70_reset_and_hazards.md R190), reserved codes refused (R80). -/
def issue (w : PortWord) (s : State) : Host.Outcome State Fault Refusal :=
  if s.waiting.isSome then .refused .operationInProgress
  else
    match decode (.port w) with
    | .ok i => exec i s
    | .error _ => .refused (.reservedOp w.op)

/-- The adapter (20_memory.md R58 to R60). A unit that is no row of the table is delivered like any other: that it is
invalid is the classifier's verdict, not a stop (30_encoding.md R76). -/
def arrive (bytes : List Byte) (s : State) : Host.Outcome State Fault Refusal :=
  match decode (.unit bytes) with
  | .ok i => exec i s
  | .error _ => deliver bytes s

/-- The return of `wait` (10_state.md R36): the POLL in progress goes on. -/
def resume (s : State) : Host.Outcome State Fault Refusal :=
  if s.waiting.isSome then exec .poll s else .refused .noWaitInProgress

/-- Reset at any time (70_reset_and_hazards.md R180, R181): every element at its reset value, the traces empty. The stimuli
still to come are not the block's; the counter of free values never goes back (log 9).
A `wait` in progress is over (log 6). -/
def State.resetNow (s : State) : State := { State.reset with input := s.input, freeCtr := s.freeCtr }

/-- One stimulus acts on the block. -/
def stimulate (x : Stimulus) (s : State) : Host.Outcome State Fault Refusal :=
  match x with
  | .op w env => issue w (s.withEnv env)
  | .waitReturn env => resume (s.withEnv env)
  | .rx bytes => arrive bytes s
  | .enable => .next (s.setSessionEn true)
  | .disable => .next (s.setSessionEn false)
  | .reset => .next s.resetNow

/-- The stimulus that brings a code to the block: the adapter a unit, the port's owner a port word. -/
def stimulusOf : Code → Stimulus
  | .port w => .op w Env.default
  | .unit bytes => .rx bytes

end Sys2Proof.Machine
end

