-- ==== Sys2Proof/Machine/Step.lean ====
section
/-! DEFINITION. The step: the next stimulus acts; with none to come the block "simply holds its state" (60_exceptions.md
R177). There is no program counter and no fetch (10_state.md R31): what a step runs is what the outside issues. -/

namespace Sys2Proof.Machine

/-- The stimuli that come after the next one. -/
def State.withInput (s : State) (xs : List Stimulus) : State := { s with input := xs }

/-- One step of the machine. -/
def step (s : State) : Host.Outcome State Fault Refusal :=
  match s.input with
  | [] => .next s
  | x :: xs => stimulate x (s.withInput xs)

/-- `s` with the instruction of a table word (its bits numbered as spec/opcode_table.json numbers them) as its next stimulus.
The port takes an operation only while no `wait` is in progress, so one that is in progress is over. -/
def State.withFetchWord (s : State) (nbits w : Nat) : State :=
  match tableCode nbits w with
  | .port p => s.endWait.withInput (stimulusOf (.port p) :: s.input)
  | .unit bytes => s.withInput (stimulusOf (.unit bytes) :: s.input)

end Sys2Proof.Machine
end

