-- ==== Sys2Proof/Safety.lean ====
section
/-! DEFINITION. What counts as a good state and a good run: the invariant every step keeps, the order of the callbacks, and
the breaches of the surroundings' duties that a step refuses (70_reset_and_hazards.md, 93_implementation_defined.md). -/

namespace Sys2Proof.Machine

/-- A session is under way past the header: the states in which the file metadata is valid (10_state.md R29). -/
def SState.inSession : SState → Bool
  | .idle | .handshaking => false
  | .receiving | .awaitEot2 | .awaitTail => true

/-- The bytes the block transmits (30_encoding.md R78). -/
def replyBytes : List Byte := [Config.crq, Config.ack, Config.nak, Config.params.abortByte]

/-- A callback's arguments are ones the block passes: a name of at most 63 bytes without NUL (42_header_extractor.md R121), or
the whole payload region (10_state.md R37). -/
def Callback.proper : Callback → Bool
  | .acceptHeader name _ => decide (name.length ≤ Config.nameMax) && name.all fun b => b != Config.nul
  | .acceptPayload off n region =>
    off == Config.hdrLen && (n == Config.p128 || n == Config.p1024) && region.length == n
  | .acceptEnd => true

/-- The invariant. -/
structure State.Inv (s : State) : Prop where
  /-- The buffer is in canonical form. -/
  buffer : s.buf.wf
  /-- `RX_LEN` is legal (10_state.md R23). -/
  length : s.rxLen.toNat ≤ Config.bufCap
  /-- A `wait` is in progress only inside a Handshaking POLL (R36). -/
  wait : s.waiting.isSome = true → s.sstate = .handshaking
  /-- `META_VALID` is 1 exactly in the metadata's window (R29). -/
  metadata : s.metaValid = s.sstate.inSession
  /-- Only reply bytes were transmitted (30_encoding.md R78). -/
  replies : ∀ b ∈ s.tx, b ∈ replyBytes
  /-- Every callback had proper arguments. -/
  calls : ∀ c ∈ s.cb, c.proper = true

/-- Whether a file is open at the sink after a call: a header opens one, a payload needs one, the end closes it. -/
def sinkAfter (file : Option Bool) (c : Callback) : Option Bool :=
  match file, c with
  | none, _ => none
  | some _, .acceptHeader _ _ => some true
  | some true, .acceptPayload _ _ _ => some true
  | some true, .acceptEnd => some false
  | some false, .acceptPayload _ _ _ => none
  | some false, .acceptEnd => none

/-- The sink's view of a callback trace; `none` once a payload or an end came with no file open. -/
def sinkState (cb : List Callback) : Option Bool := cb.foldl sinkAfter (some false)

/-- The sink never saw a payload or an end out of order, and in a session past its header a file is open. -/
def State.SinkOrdered (s : State) : Prop :=
  match sinkState s.cb with
  | none => False
  | some isOpen => s.sstate.inSession = true → isOpen = true

/-- An instruction the port may run now: CRC.BLK inside the buffer (40_crc16.md R94), HDRX on a packet
(42_header_extractor.md R120). A unit: only with `DATA_READY` = 0 (20_memory.md R60), and no longer than the buffer. -/
def instrAllowed (i : Instr) (s : State) : Bool :=
  match i with
  | .nop | .crcClr | .crcUpd _ | .frame | .classify | .tailchk | .poll => true
  | .crcBlk off n => blockInBuffer off n
  | .hdrx => (plen s.marker).isSome
  | .eot extra | .ack extra | .nak extra | .can extra | .crq extra | .abort1 extra | .abort2 extra =>
    !s.dataReady && decide (1 + extra.length ≤ Config.bufCap)
  | .soh _ _ body | .stx _ _ body => !s.dataReady && decide (Config.hdrLen + body.length ≤ Config.bufCap)

/-- A stimulus that keeps the surroundings' duties (70_reset_and_hazards.md R184, R190). -/
def Stimulus.allowed (x : Stimulus) (s : State) : Bool :=
  match x with
  | .op w _ =>
    s.waiting.isNone &&
      match decode (.port w) with
      | .ok i => instrAllowed i s
      | .error _ => false
  | .waitReturn _ => s.waiting.isSome
  | .rx bytes => !s.dataReady && decide (bytes.length ≤ Config.bufCap)
  | .enable | .disable | .reset => true

/-- The next step keeps the surroundings' duties. -/
def State.safe (s : State) : Bool :=
  match s.input with
  | [] => true
  | x :: _ => x.allowed s

end Sys2Proof.Machine
end

