-- ==== Sys2Proof/Certificates/Slice0/Obligations.lean ====
section
/-! DEFINITION. The statements for the provers. Conventions of the model that many of them name: a port operation's outputs are
appended to `results` (log 5), a Handshaking POLL is two transitions with `waiting` between them (log 6), the environment's
answers stand in `env` (log 7), the OPEN parameters are `Config.params` (log 2), the control bytes are `Config`'s (log 1). -/

open Sys2Proof Sys2Proof.Machine

/-! ## Encoding -/

/-- Decode and encode agree, with every operand at every value the encoding admits (30_encoding.md R70 to R79). -/
def Obligations.DecodeOfEncodeIsTheInstruction : Prop :=
  ∀ i : Instr, i.wf = true → decode (encode i) = .ok i

/-- The other direction: a unit has one reading, and its instruction encodes to exactly its bytes; a port word's instruction
encodes to a word with the same code (the operands it does not name may differ, R79). -/
def Obligations.EncodeOfDecodeIsTheCode : Prop :=
  (∀ bytes i, decode (.unit bytes) = .ok i → i.wf = true ∧ encode i = .unit bytes) ∧
  ∀ w i, decode (.port w) = .ok i →
    i.wf = true ∧ ∃ v : PortWord, encode i = .port v ∧ v.op = w.op ∧ decode (.port v) = .ok i

/-- R84: the decoder of units is the one "written from the rows alone", and no unit fits two rows. -/
def Obligations.UnitDecodingFollowsTheTable : Prop :=
  (unitRows.Pairwise fun r q => ∀ len b, ¬ (r.fits len b = true ∧ q.fits len b = true)) ∧
  ∀ b rest, (b :: rest).length ≤ Config.bufCap →
    match decode (.unit (b :: rest)) with
    | .ok i => ∃ r ∈ unitRows, r.fits (rest.length + 1) b = true ∧ r.mnemonic = i.mnemonic
    | .error _ => ∀ r ∈ unitRows, r.fits (rest.length + 1) b = false

/-- R80: codes 0x9 to 0xF are refused, whatever their operands, and are not NOP. -/
def Obligations.ReservedCodesAreRefused : Prop :=
  ∀ (s : State) (w : PortWord) env rest, 9 ≤ w.op.toNat → s.waiting = none → s.input = .op w env :: rest →
    decode (.port w) = .error (.reservedOp w.op) ∧ step s = .refused (.reservedOp w.op)

/-- Words written out from R75 and R79, one of each format. -/
def Obligations.SampleWordsDecode : Prop :=
  decode (.port ⟨0b0010#4, 0b01000001#8, 0, 0⟩) = .ok (.crcUpd 0x41) ∧
  decode (.port ⟨0b0011#4, 0, 0b00000000011#11, 0b00010000000#11⟩) = .ok (.crcBlk 3 128) ∧
  decode (.port ⟨0b1000#4, 0, 0, 0⟩) = .ok .poll ∧
  decode (.unit [0b00010101#8]) = .ok (.nak []) ∧
  decode (.unit (0b00000001#8 :: 0x00 :: 0xFF :: List.replicate 130 0)) = .ok (.soh 0x00 0xFF (List.replicate 130 0))

/-! ## The step -/

/-- A step runs the decoded instruction, of the port or of the wire. -/
def Obligations.StepRunsTheDecodedInstruction : Prop :=
  (∀ (s : State) w env rest i, s.input = .op w env :: rest → s.waiting = none → decode (.port w) = .ok i →
    step s = exec i { s with input := rest, env := env }) ∧
  ∀ (s : State) bytes rest i, s.input = .rx bytes :: rest → decode (.unit bytes) = .ok i →
    step s = exec i { s with input := rest }

/-- The other stimuli of R83: nothing to come; the external trigger (10_state.md R25); the return of `wait` (R36), which goes
on with the POLL; a port operation during the wait (70_reset_and_hazards.md R190); a unit that is no row of the table, which
is delivered like any other (30_encoding.md R76). -/
def Obligations.StepOfTheOtherStimuli : Prop :=
  (∀ s : State, s.input = [] → step s = .next s) ∧
  (∀ (s : State) rest, s.input = .enable :: rest → step s = .next { s with input := rest, sessionEn := true }) ∧
  (∀ (s : State) rest, s.input = .disable :: rest → step s = .next { s with input := rest, sessionEn := false }) ∧
  (∀ (s : State) env rest, s.input = .waitReturn env :: rest → s.waiting.isSome = true →
    step s = exec .poll { s with input := rest, env := env }) ∧
  (∀ (s : State) env rest, s.input = .waitReturn env :: rest → s.waiting = none → step s = .refused .noWaitInProgress) ∧
  (∀ (s : State) w env rest, s.input = .op w env :: rest → s.waiting.isSome = true →
    step s = .refused .operationInProgress) ∧
  ∀ (s : State) bytes rest e, s.input = .rx bytes :: rest → decode (.unit bytes) = .error e → s.dataReady = false →
    bytes.length ≤ Config.bufCap →
    ∃ t, step s = .next t ∧ t = { s with input := rest, buf := t.buf, rxLen := t.rxLen, dataReady := true } ∧
      t.rxLen.toNat = bytes.length ∧ ∀ a, t.byte a = if h : a < bytes.length then bytes[a] else s.byte a

/-- Which steps go on: exactly those in which the surroundings keep their duties and the instruction is one the spec gives a
meaning (`State.safe`). No step faults: `Fault` has no values (60_exceptions.md R160). Not all of it is the spec's duties: that
a return of `wait` no POLL called for is refused is log 6 (DEDUCED), that a step with no stimulus holds the state is log 7
(DESIGN CHOICE), that units no row lists, the empty one too, are delivered is log 12 (DEDUCED). -/
def Obligations.StepGoesOnExactlyWhenSafe : Prop :=
  ∀ s : State, (∃ t, step s = .next t) ↔ s.safe = true

/-! ## Reset -/

/-- The reset values R41 gives, and the empty traces. (What `BUF`, `RX_LEN`, `NAME`, `FSIZE` hold is not stated.) -/
def Obligations.ResetLeavesTheGivenValues : Prop :=
  State.reset.sstate = .idle ∧ State.reset.sessionEn = false ∧ State.reset.dataReady = false ∧ State.reset.crc = 0x0000 ∧
  State.reset.nameLen = 0 ∧ State.reset.metaValid = false ∧ State.reset.tx = [] ∧ State.reset.cb = []

/-- R181 and R180: reset at any time; nothing is transmitted and the block is Idle and disabled, so a POLL after it does
nothing. All reset values but Idle are the spec's decision D9. The model's own: that reset ends a wait in progress (log 6,
DEDUCED and unsafe for this), and that the stimuli still to come stay (log 9). -/
def Obligations.ResetAtAnyTimeMakesPollQuiet : Prop :=
  ∀ (s : State) rest, s.input = .reset :: rest →
    ∃ t, step s = .next t ∧ t.sstate = .idle ∧ t.sessionEn = false ∧ t.dataReady = false ∧ t.metaValid = false ∧
      t.crc = 0x0000 ∧ t.nameLen = 0 ∧ t.tx = [] ∧ t.cb = [] ∧ t.waiting = none ∧ t.input = rest ∧ exec .poll t = .next t

/-! ## NOP and the CRC generator -/

/-- R79: "NOP changes no state and produces no output." -/
def Obligations.NopChangesNothing : Prop :=
  ∀ s : State, exec .nop s = .next s

/-- R92: the value, and everything else as it was; the port shows `CRC` (R79). -/
def Obligations.CrcClrWritesTheInitialValue : Prop :=
  ∀ s : State, exec .crcClr s = .next { s with crc := 0x0000, results := s.results ++ [.crc 0x0000] }

/-- R93, with R90's function written as the pseudocode has it: eight times, shift, and XOR the polynomial when bit 15 was 1. -/
def Obligations.CrcUpdRunsTheBitLoop : Prop :=
  ∀ (s : State) (din : Byte),
    let loop : Word16 → Word16 := fun t => if t.getLsbD 15 then (t <<< 1) ^^^ 0x1021#16 else t <<< 1
    let c := loop^[8] (s.crc ^^^ (BitVec.zeroExtend 16 din <<< 8))
    exec (.crcUpd din) s = .next { s with crc := c, results := s.results ++ [.crc c] }

/-- R94: from 0x0000 over the region, whatever `CRC` and `RX_LEN` were; refused where the region leaves the buffer. -/
def Obligations.CrcBlkSumsTheRegion : Prop :=
  ∀ (s : State) (off n : Word11),
    let c := crc16 ((List.range n.toNat).map fun i => s.byte (off.toNat + i))
    (off.toNat + n.toNat ≤ 1029 → exec (.crcBlk off n) s = .next { s with crc := c, results := s.results ++ [.crc c] }) ∧
    (1029 < off.toNat + n.toNat → exec (.crcBlk off n) s = .refused (.blockOutsideBuffer off n))

/-- R96, all six properties. -/
def Obligations.CrcPropertiesHold : Prop :=
  (crc16Update 0x0000 0x00 = 0x0000 ∧ ∀ k, crc16 (List.replicate k 0x00) = 0x0000) ∧
  (crc16Update 0x0000 0x01 = 0x1021 ∧ crc16Update 0x0000 0x02 = 0x2042 ∧ crc16Update 0x0000 0x10 = 0x1231 ∧
    crc16Update 0x0000 0x80 = 0x9188 ∧ crc16Update 0x0000 0xFF = 0x1EF0) ∧
  (∀ c₁ c₂ b₁ b₂, crc16Update (c₁ ^^^ c₂) (b₁ ^^^ b₂) = crc16Update c₁ b₁ ^^^ crc16Update c₂ b₂) ∧
  (∀ s : List Byte, crc16 (s ++ [(crc16 s).extractLsb' 8 8, (crc16 s).extractLsb' 0 8]) = 0x0000) ∧
  (∀ s : List Byte, crc16 (0x00 :: s) = crc16 s) ∧
  ∀ s₁ s₂ : List Byte, crc16 (s₁ ++ s₂) = s₂.foldl crc16Update (crc16 s₁)

/-- R90: the table-driven form, and the form that shifts the message in from the right behind two zero bytes, compute the
same function on every byte sequence. -/
def Obligations.CrcFormulationsAgree : Prop :=
  ∀ bytes : List Byte, crc16Table bytes = crc16 bytes ∧ crc16Appended bytes = crc16 bytes

/-! ## FRAME, CLASSIFY, TAILCHK -/

/-- R100 with R101 and R52: the fields at the offsets the marker fixes, `RXCRC` big-endian, fillers without a marker. The
state is otherwise as it was, and `RX_LEN` plays no part. -/
def Obligations.FrameReturnsTheFields : Prop :=
  ∀ s : State, ∃ pl rx,
    exec .frame s = .next { s with results := s.results ++ [.frame (s.byte 0) (s.byte 1) (s.byte 2) pl rx] } ∧
    (s.byte 0 = Config.soh → pl = 128 ∧ rx.toNat = 256 * (s.byte 131).toNat + (s.byte 132).toNat) ∧
    (s.byte 0 = Config.stx → pl = 1024 ∧ rx.toNat = 256 * (s.byte 1027).toNat + (s.byte 1028).toNat) ∧
    (s.byte 0 ≠ Config.soh → s.byte 0 ≠ Config.stx → pl = 0 ∧ rx = 0)

/-- R105: the short branch, from `BUF[0]` alone. -/
def Obligations.ClassifyShortUnits : Prop :=
  ∀ s : State, s.rxLen.toNat < 128 →
    let accepted := [Config.eot, Config.ack, Config.nak, Config.can, Config.crq]
    exec .classify s =
      .next { s with results := s.results ++ [.cls (if s.byte 0 ∈ accepted then (s.byte 0).setWidth 9 else 0x100)] }

/-- The two conditions of R106 on a packet with `n` payload bytes, on the bytes as they lie. -/
def Sys2Proof.Machine.State.packetOk (s : State) (n : Nat) : Prop :=
  (s.byte 1).toNat + (s.byte 2).toNat = 0xFF ∧
  (crc16 ((List.range n).map fun i => s.byte (3 + i))).toNat = 256 * (s.byte (3 + n)).toNat + (s.byte (4 + n)).toNat

/-- R106 with R102, R103 and R107: the long branch. -/
def Obligations.ClassifyLongUnits : Prop :=
  ∀ s : State, 128 ≤ s.rxLen.toNat → ∃ v,
    exec .classify s = .next { s with results := s.results ++ [.cls v] } ∧
    (s.byte 0 = Config.soh ∧ s.packetOk 128 ∨ s.byte 0 = Config.stx ∧ s.packetOk 1024 → v = (s.byte 0).setWidth 9) ∧
    (¬ (s.byte 0 = Config.soh ∧ s.packetOk 128 ∨ s.byte 0 = Config.stx ∧ s.packetOk 1024) → v = 0x100)

/-- R109: two states that agree on `RX_LEN` and on the bytes R56 lists get the same verdict, whatever else differs. -/
def Obligations.ClassifyReadsOnlyItsBytes : Prop :=
  ∀ s t : State, s.rxLen = t.rxLen → s.byte 0 = t.byte 0 →
    (128 ≤ s.rxLen.toNat → s.byte 0 = Config.soh → ∀ a, a ≤ 132 → s.byte a = t.byte a) →
    (128 ≤ s.rxLen.toNat → s.byte 0 = Config.stx → ∀ a, a ≤ 1028 → s.byte a = t.byte a) →
    ∃ v, exec .classify s = .next { s with results := s.results ++ [.cls v] } ∧
      exec .classify t = .next { t with results := t.results ++ [.cls v] }

/-- R102: the four forms of the sequence-pair test are one predicate. -/
def Obligations.SequencePairFormsAgree : Prop :=
  ∀ s : State,
    (s.seqOk = true ↔ (s.byte 1).toNat + (s.byte 2).toNat = 255) ∧
    (s.seqOk = true ↔ ((s.byte 1).toNat + (s.byte 2).toNat) % 256 = 255) ∧
    (s.seqOk = true ↔ s.byte 2 = ~~~ s.byte 1) ∧
    (s.seqOk = true ↔ s.byte 1 ^^^ s.byte 2 = 0xFF)

/-- R108: the 128-byte marker and a complement pair; no length, no CRC, no state written. -/
def Obligations.TailchkTestsMarkerAndPair : Prop :=
  ∀ s : State,
    let ok := decide (s.byte 0 = Config.soh ∧ (s.byte 1).toNat + (s.byte 2).toNat = 255)
    exec .tailchk s = .next { s with results := s.results ++ [.tail ok] }

/-- R112: the two verdicts can disagree both ways. -/
def Obligations.TailAndClassifierDisagree : Prop :=
  (∃ s : State, tailOk s = true ∧ classify s = .invalid) ∧ ∃ s : State, tailOk s = false ∧ classify s = .pkt1024

/-! ## HDRX -/

/-- The number a run of decimal digits is. -/
def Sys2Proof.Machine.decimal (digits : List Byte) : Nat :=
  digits.foldl (fun v b => 10 * v + (b.toNat - 0x30)) 0

/-- R121 to R123 on a payload with a NUL: the name before it, cut to 63 bytes; spaces skipped; the decimal number modulo
2^32 (R125); one `AcceptHeader`, whose Boolean is `HDR_OK`. Everything else is as it was; `NAME` past the name is free. -/
def Obligations.HdrxParsesNameAndSize : Prop :=
  ∀ (s : State) n nm k ds rest,
    (s.byte 0 = Config.soh ∧ n = 128 ∨ s.byte 0 = Config.stx ∧ n = 1024) →
    (List.range n).map (fun i => s.byte (3 + i)) = nm ++ 0x00 :: (List.replicate k 0x20 ++ ds ++ rest) →
    (∀ b ∈ nm, b ≠ 0x00) → (∀ b ∈ ds, 0x30 ≤ b.toNat ∧ b.toNat ≤ 0x39) →
    (∀ b, rest.head? = some b → ¬ (0x30 ≤ b.toNat ∧ b.toNat ≤ 0x39) ∧ (ds = [] → b ≠ 0x20)) →
    ∃ t, exec .hdrx s = .next t ∧
      t = { s with name := t.name, nameLen := t.nameLen, fsize := t.fsize, freeCtr := t.freeCtr,
                   cb := s.cb ++ [.acceptHeader (nm.take 63) t.fsize],
                   results := s.results ++ [.hdr (nm.take 63) t.nameLen t.fsize s.env.hdrRet] } ∧
      t.nameLen.toNat = min nm.length 63 ∧ t.name.toList.take (min nm.length 63) = nm.take 63 ∧
      t.fsize.toNat = decimal ds % 2 ^ 32

/-- R121 and R122 on a payload without a NUL: its first 63 bytes are the name, and the size is 0. -/
def Obligations.HdrxWithoutNulNamesAllAndSizesNone : Prop :=
  ∀ (s : State) n, (s.byte 0 = Config.soh ∧ n = 128 ∨ s.byte 0 = Config.stx ∧ n = 1024) →
    (∀ i < n, s.byte (3 + i) ≠ 0x00) →
    ∃ t, exec .hdrx s = .next t ∧ t.nameLen.toNat = 63 ∧ t.fsize = 0 ∧
      t.name.toList = (List.range 63).map (fun i => s.byte (3 + i)) ∧
      t.cb = s.cb ++ [.acceptHeader ((List.range 63).map fun i => s.byte (3 + i)) 0]

/-- R120: HDRX completes on every buffer that begins with a marker, and is refused on every other. It touches only its
results, and tests neither the pair nor the CRC nor `RX_LEN`. -/
def Obligations.HdrxCompletesBehindAMarker : Prop :=
  ∀ s : State,
    (s.byte 0 = Config.soh ∨ s.byte 0 = Config.stx → ∃ t, exec .hdrx s = .next t ∧
      t = { s with name := t.name, nameLen := t.nameLen, fsize := t.fsize, freeCtr := t.freeCtr, cb := t.cb,
                   results := t.results }) ∧
    (s.byte 0 ≠ Config.soh → s.byte 0 ≠ Config.stx → exec .hdrx s = .refused (.noPacketInBuffer (s.byte 0)))

/-! ## POLL -/

/-- R131, R142: Idle starts a session when enabled and is quiet otherwise; the enable flag and `DATA_READY` stay. -/
def Obligations.PollInIdle : Prop :=
  ∀ s : State, s.sstate = .idle →
    (s.sessionEn = true → exec .poll s = .next { s with sstate := .handshaking }) ∧
    (s.sessionEn = false → exec .poll s = .next s)

/-- R132, phase A: the checksum-request on every POLL, and the wait, whether or not a unit is waiting. -/
def Obligations.PollInHandshakingRequestsAndWaits : Prop :=
  ∀ s : State, s.sstate = .handshaking → s.waiting = none →
    exec .poll s = .next { s with tx := s.tx ++ [Config.crq], waiting := some Config.params.handshakeDelayMs }

/-- R132, phase B, where no unit is consumed: a zero return of `wait` for both values of `WAIT_ZERO`, and no unit. -/
def Obligations.PollAfterTheWaitWithoutUnit : Prop :=
  ∀ s : State, s.sstate = .handshaking → s.waiting.isSome = true →
    (s.env.waitRet = 0 → exec .poll s = .next (match Config.params.waitZero with
      | .skip => { s with waiting := none }
      | .abort => { s with waiting := none, tx := s.tx ++ [Config.params.abortByte], sessionEn := false, dataReady := false,
                           metaValid := false, sstate := .idle })) ∧
    (s.env.waitRet ≠ 0 → s.dataReady = false → exec .poll s = .next { s with waiting := none })

/-- R132, R145: a valid 128-byte packet opens the session, with HDRX's effect on the metadata and the callback trace, and
the reply `{ACK, CRQ}`; nothing else changes. -/
def Obligations.PollAcceptsTheHeader : Prop :=
  ∀ s : State, s.sstate = .handshaking → s.waiting.isSome = true → s.env.waitRet ≠ 0 → s.dataReady = true →
    classify s = .pkt128 →
    ∃ t u, exec .poll s = .next t ∧ exec .hdrx s = .next u ∧
      t = { s with waiting := none, dataReady := false, metaValid := true, sstate := .receiving,
                   tx := s.tx ++ [Config.ack, Config.crq], cb := u.cb, name := u.name, nameLen := u.nameLen,
                   fsize := u.fsize, freeCtr := u.freeCtr }

/-- R132, R164: any other unit in Handshaking aborts the session (R136). -/
def Obligations.PollInHandshakingAbortsOnAnythingElse : Prop :=
  ∀ s : State, s.sstate = .handshaking → s.waiting.isSome = true → s.env.waitRet ≠ 0 → s.dataReady = true →
    classify s ≠ .pkt128 →
    exec .poll s = .next { s with waiting := none, tx := s.tx ++ [Config.params.abortByte], sessionEn := false,
                                  dataReady := false, metaValid := false, sstate := .idle }

/-- R133: a packet is handed to the sink whole and acknowledged; the first `EOT` is answered `NAK`; anything else aborts. -/
def Obligations.PollInReceivingData : Prop :=
  ∀ s : State, s.sstate = .receiving → s.dataReady = true →
    (∀ n, classify s = .pkt128 ∧ n = 128 ∨ classify s = .pkt1024 ∧ n = 1024 →
      exec .poll s = .next { s with dataReady := false, tx := s.tx ++ [Config.ack],
                                    cb := s.cb ++ [.acceptPayload 3 n ((List.range n).map fun i => s.byte (3 + i))] }) ∧
    (classify s = .ctrl .eot → exec .poll s = .next { s with dataReady := false, tx := s.tx ++ [Config.nak],
                                                             sstate := .awaitEot2 }) ∧
    (classify s ≠ .pkt128 → classify s ≠ .pkt1024 → classify s ≠ .ctrl .eot →
      exec .poll s = .next { s with tx := s.tx ++ [Config.params.abortByte], sessionEn := false, dataReady := false,
                                    metaValid := false, sstate := .idle })

/-- R134: the second `EOT` is answered `{ACK, CRQ}`; anything else, a valid packet too, aborts; no unit, nothing. -/
def Obligations.PollInAwaitingSecondEnd : Prop :=
  ∀ s : State, s.sstate = .awaitEot2 →
    (s.dataReady = false → exec .poll s = .next s) ∧
    (s.dataReady = true → classify s = .ctrl .eot →
      exec .poll s = .next { s with dataReady := false, tx := s.tx ++ [Config.ack, Config.crq], sstate := .awaitTail }) ∧
    (s.dataReady = true → classify s ≠ .ctrl .eot →
      exec .poll s = .next { s with tx := s.tx ++ [Config.params.abortByte], sessionEn := false, dataReady := false,
                                    metaValid := false, sstate := .idle })

/-- R135: the tail check decides between `ACK` with `AcceptEnd` and the abort byte; both outcomes close the session. -/
def Obligations.PollInAwaitingFinalTail : Prop :=
  ∀ s : State, s.sstate = .awaitTail → s.dataReady = true →
    let good := s.byte 0 = Config.soh ∧ (s.byte 1).toNat + (s.byte 2).toNat = 255
    (good → exec .poll s = .next { s with tx := s.tx ++ [Config.ack], cb := s.cb ++ [.acceptEnd], sessionEn := false,
                                          dataReady := false, metaValid := false, sstate := .idle }) ∧
    (¬ good → exec .poll s = .next { s with tx := s.tx ++ [Config.params.abortByte], sessionEn := false,
                                            dataReady := false, metaValid := false, sstate := .idle })

/-- R137, R141: without a unit a POLL in the three later session states does nothing at all. -/
def Obligations.PollWithoutUnitDoesNothing : Prop :=
  ∀ s : State, s.sstate = .receiving ∨ s.sstate = .awaitEot2 ∨ s.sstate = .awaitTail → s.dataReady = false →
    exec .poll s = .next s

/-- R147: what one whole POLL appends to `TX`, for every choice of the OPEN parameters. -/
def Obligations.TransmitTotalsPerPoll : Prop :=
  ∀ (p : Config.Params) (s : State), s.waiting = none → (pollWhole p s).tx = s.tx ++
    match s.sstate with
    | .idle => []
    | .handshaking =>
      if s.env.waitRet = 0 then
        match p.waitZero with
        | .skip => [Config.crq]
        | .abort => [Config.crq, p.abortByte]
      else if s.dataReady = false then [Config.crq]
      else if classify s = .pkt128 then [Config.crq, Config.ack, Config.crq]
      else [Config.crq, p.abortByte]
    | .receiving =>
      if s.dataReady = false then []
      else if classify s = .pkt128 ∨ classify s = .pkt1024 then [Config.ack]
      else if classify s = .ctrl .eot then [Config.nak]
      else [p.abortByte]
    | .awaitEot2 =>
      if s.dataReady = false then []
      else if classify s = .ctrl .eot then [Config.ack, Config.crq]
      else [p.abortByte]
    | .awaitTail =>
      if s.dataReady = false then []
      else if tailOk s = true then [Config.ack]
      else [p.abortByte]

/-- R139: the only transitions of `SSTATE`, over every step but reset; those back to Idle before the tail are aborts (R136); a
POLL makes each of them. -/
def Obligations.TransitionsAreTheTables : Prop :=
  ∀ s t : State, step s = .next t → s.input.head? ≠ some .reset → s.sstate ≠ t.sstate →
    ((s.sstate, t.sstate) ∈ [(SState.idle, SState.handshaking), (.handshaking, .receiving), (.receiving, .awaitEot2),
      (.awaitEot2, .awaitTail), (.awaitTail, .idle), (.handshaking, .idle), (.receiving, .idle), (.awaitEot2, .idle)]) ∧
    (t.sstate = .idle → s.sstate ≠ .awaitTail →
      t.tx = s.tx ++ [Config.params.abortByte] ∧ t.cb = s.cb ∧ t.sessionEn = false ∧ t.dataReady = false) ∧
    ∃ x, s.input.head? = some x ∧
      ((∃ env, x = .waitReturn env) ∨ ∃ w env, x = .op w env ∧ decode (.port w) = .ok .poll)

/-- R140: Idle reads `SESSION_EN` and does nothing, or starts a session, by it; outside Idle a POLL behaves the same for both
values, and leaves the flag alone unless it ends the session, which writes it 0. -/
def Obligations.SessionEnabledIsReadInIdleOnly : Prop :=
  ∀ (s : State) b,
    (s.sstate = .idle → exec .poll { s with sessionEn := b } =
      .next { s with sessionEn := b, sstate := if b then .handshaking else .idle }) ∧
    (s.sstate ≠ .idle → ∃ t, exec .poll s = .next t ∧
      exec .poll { s with sessionEn := b } = .next { t with sessionEn := if t.sstate = .idle then false else b } ∧
      t.sessionEn = if t.sstate = .idle then false else s.sessionEn)

/-- R175, R38: the three callback results change nothing that POLL does. -/
def Obligations.CallbackResultsDoNotBranch : Prop :=
  ∀ (s : State) (e : Env), e.waitRet = s.env.waitRet → ∃ t, exec .poll s = .next t ∧
    exec .poll { s with env := e } = .next { t with env := e }

/-- R188 (and source S7): a one-byte unit 0x00 makes the next POLL of any session state abort: in Handshaking the POLL whose
wait returns non-zero. No callback is made (R136). -/
def Obligations.AnUnlistedByteAbortsTheSession : Prop :=
  ∀ (s : State) rest, s.sstate ≠ .idle → (s.sstate = .handshaking → s.waiting.isSome = true ∧ s.env.waitRet ≠ 0) →
    s.dataReady = false → s.input = .rx [0x00] :: rest →
    ∃ t u, step s = .next t ∧ exec .poll t = .next u ∧ u.sstate = .idle ∧ u.sessionEn = false ∧ u.dataReady = false ∧
      u.tx = s.tx ++ [Config.params.abortByte] ∧ u.cb = s.cb

/-! ## Units and the buffer -/

/-- R57, R59: each of the nine units (`EOT`, `ACK`, `NAK`, `CAN`, `CRQ`, `ABORT1`, `ABORT2`, `SOH`, `STX`), delivered: offsets
below its length hold its bytes, the others what they held; `RX_LEN` is its length and the flag is up; nothing else changes. -/
def Obligations.DeliveryWritesTheUnit : Prop :=
  ∀ (i : Instr) bytes (s : State), encode i = .unit bytes → i.wf = true → s.dataReady = false →
    ∃ t, exec i s = .next t ∧ t = { s with buf := t.buf, rxLen := t.rxLen, dataReady := true } ∧
      t.rxLen.toNat = bytes.length ∧ ∀ a, t.byte a = if h : a < bytes.length then bytes[a] else s.byte a

/-- R60: no delivery while a unit is outstanding, of any of the nine kinds, and no other ground for that refusal. -/
def Obligations.OneOutstandingUnit : Prop :=
  ∀ (i : Instr) bytes (s : State), encode i = .unit bytes →
    (exec i s = .refused .deliveryWhileReady ↔ s.dataReady = true)

/-- R75, R77: a delivered control unit is classified as its row says, whatever bytes came with it: the five accepted values
as themselves, the two abort-by-user bytes as invalid. -/
def Obligations.ControlUnitsClassifyAsTheirRows : Prop :=
  ∀ (s : State) (extra : List Byte), 1 + extra.length < 128 → s.dataReady = false →
    let reads (i : Instr) (v : Verdict) : Prop := ∃ t, exec i s = .next t ∧ classify t = v
    reads (.eot extra) (.ctrl .eot) ∧ reads (.ack extra) (.ctrl .ack) ∧ reads (.nak extra) (.ctrl .nak) ∧
    reads (.can extra) (.ctrl .can) ∧ reads (.crq extra) (.ctrl .crq) ∧ reads (.abort1 extra) .invalid ∧
    reads (.abort2 extra) .invalid

/-- R72, R73, R106: a whole packet, delivered over any buffer, is accepted exactly when its complement and its CRC are right. -/
def Obligations.WholePacketsAreAcceptedWhenIntact : Prop :=
  ∀ (s : State) (seq nseq hi lo : Byte) (pay : List Byte), s.dataReady = false →
    let intact := seq.toNat + nseq.toNat = 255 ∧ (crc16 pay).toNat = 256 * hi.toNat + lo.toNat
    (pay.length = 128 → ∃ t, exec (.soh seq nseq (pay ++ [hi, lo])) s = .next t ∧
      (intact → classify t = .pkt128) ∧ (¬ intact → classify t = .invalid)) ∧
    (pay.length = 1024 → ∃ t, exec (.stx seq nseq (pay ++ [hi, lo])) s = .next t ∧
      (intact → classify t = .pkt1024) ∧ (¬ intact → classify t = .invalid))

/-- R57, R82: a packet cut short is judged with the stale bytes: over a buffer that still holds the missing ones it reads as
the whole packet. -/
def Obligations.StaleBytesCompleteAShortPacket : Prop :=
  ∀ (s : State) (bytes : List Byte) k, s.dataReady = false → 128 ≤ k → k ≤ bytes.length → bytes.length ≤ 1029 →
    (∀ a (h : a < bytes.length), k ≤ a → s.byte a = bytes[a]) →
    ∃ t u, deliver (bytes.take k) s = .next t ∧ deliver bytes s = .next u ∧ t.rxLen.toNat = k ∧
      (∀ a, t.byte a = u.byte a) ∧ classify t = classify u

/-- R186, program P6: in AwaitingFinalTail a lone `SOH` over a buffer that still holds a complement pair ends the session
cleanly. -/
def Obligations.LoneMarkerOverAStalePairPassesTheTail : Prop :=
  ∀ (s : State) rest, s.sstate = .awaitTail → s.dataReady = false → s.input = .rx [Config.soh] :: rest →
    (s.byte 1).toNat + (s.byte 2).toNat = 255 →
    ∃ t u, step s = .next t ∧ exec .poll t = .next u ∧ u.sstate = .idle ∧ u.sessionEn = false ∧
      u.tx = s.tx ++ [Config.ack] ∧ u.cb = s.cb ++ [.acceptEnd]

/-- R94's example, R96 item 4: CRC.BLK over the payload and trailer of a packet the classifier accepts leaves 0. -/
def Obligations.CrcBlkOfAValidPacketIsZero : Prop :=
  ∀ s : State,
    (classify s = .pkt128 → exec (.crcBlk 3 130) s = .next { s with crc := 0, results := s.results ++ [.crc 0] }) ∧
    (classify s = .pkt1024 → exec (.crcBlk 3 1026) s = .next { s with crc := 0, results := s.results ++ [.crc 0] })

/-! ## Whole-machine rules -/

/-- R65, R58: no step but a delivery (and reset) changes a byte of `BUF` or `RX_LEN`. -/
def Obligations.OnlyTheAdapterWritesTheBuffer : Prop :=
  ∀ s t : State, step s = .next t → (∀ bytes, s.input.head? ≠ some (.rx bytes)) → s.input.head? ≠ some .reset →
    t.rxLen = s.rxLen ∧ ∀ a, t.byte a = s.byte a

/-- R20's columns "written by", over all instructions: the frames. `env` and `input` are no instruction's to write. -/
def Obligations.EachElementHasItsWriters : Prop :=
  ∀ (i : Instr) (s t : State), exec i s = .next t →
    (i.mnemonic ∉ ["CRC.CLR", "CRC.UPD", "CRC.BLK"] → t.crc = s.crc) ∧
    (i.mnemonic ∉ ["HDRX", "POLL"] → t.name = s.name ∧ t.nameLen = s.nameLen ∧ t.fsize = s.fsize ∧ t.cb = s.cb ∧
      t.freeCtr = s.freeCtr) ∧
    (i.mnemonic ≠ "POLL" → t.sstate = s.sstate ∧ t.sessionEn = s.sessionEn ∧ t.metaValid = s.metaValid ∧ t.tx = s.tx ∧
      t.waiting = s.waiting) ∧
    ((∀ bytes, encode i ≠ .unit bytes) → t.rxLen = s.rxLen ∧ (∀ a, t.byte a = s.byte a) ∧
      (i ≠ .poll → t.dataReady = s.dataReady)) ∧
    (i.mnemonic ∉ ["CRC.CLR", "CRC.UPD", "CRC.BLK", "FRAME", "CLASSIFY", "TAILCHK", "HDRX"] → t.results = s.results) ∧
    t.env = s.env ∧ t.input = s.input

/-- The canonical form does its work: buffers in it that read alike are the same data. -/
def Obligations.BuffersThatReadAlikeAreEqual : Prop :=
  ∀ m m' : Memory, m.wf → m'.wf → (∀ a, m.read a = m'.read a) → m = m'

/-- The invariant holds at reset. That `RX_LEN` is at most 1029 and the buffer in canonical form there is the model's choice:
R41 leaves both unspecified, and logs 9 and 8 (DESIGN CHOICE, unsafe) make them 0 and empty. -/
def Obligations.ResetKeepsTheInvariant : Prop :=
  State.reset.Inv ∧ State.reset.SinkOrdered

/-- Every step keeps the invariant: the buffer's form, a legal `RX_LEN` (R23), a wait only in Handshaking (R36), `META_VALID`
exactly in its window (R29), only reply bytes on the wire (R78), only proper callback arguments (R37, R121). The model's own:
the canonical form (log 8), `waiting` (log 6), the payload's bytes in the callback trace (log 13). On the step of reset, `RX_LEN`
and the buffer's form rest on logs 9 and 8 (DESIGN CHOICE, unsafe), since R41 leaves both unspecified. -/
def Obligations.EveryStepKeepsTheInvariant : Prop :=
  ∀ s t : State, s.Inv → step s = .next t → t.Inv

/-- The sink sees a header before any payload or end, and after an end no payload before the next header: every step keeps
it (R132, R133, R135, R144). -/
def Obligations.EveryStepKeepsTheSinkInOrder : Prop :=
  ∀ s t : State, s.SinkOrdered → step s = .next t → t.SinkOrdered

/-! ## The port's outputs -/

/-- R40: the results of the port's operations are outputs of the transition that computes them. A step shows at most one, no step
depends on what was shown before, and a refusal does not either; only reset, which empties the traces, makes the list shorter.
(That the outputs stand in a list beside the block is log 5.) -/
def Obligations.PortOutputsAreNotLatched : Prop :=
  ∀ (s : State) (shown : List Result),
    (∀ t, step s = .next t → s.input.head? = some .reset → step { s with results := shown } = .next t ∧ t.results = []) ∧
    (∀ t, step s = .next t → s.input.head? ≠ some .reset → ∃ out, out.length ≤ 1 ∧ t.results = s.results ++ out ∧
      step { s with results := shown } = .next { t with results := shown ++ out }) ∧
    ∀ r, step s = .refused r → step { s with results := shown } = .refused r
end

