-- ==== Sys2Proof/Laws/State.lean ====
section
/-! SUPPORT. One lemma per field and named update of State, so that no later proof unfolds an update. -/

namespace Sys2Proof.Machine

variable (s : State)

@[simp] theorem State.arm_eq : s.arm = s := rfl

/-! ### consume -/

@[simp] theorem State.consume_crc : s.consume.crc = s.crc := rfl
@[simp] theorem State.consume_buf : s.consume.buf = s.buf := rfl
@[simp] theorem State.consume_rxLen : s.consume.rxLen = s.rxLen := rfl
@[simp] theorem State.consume_dataReady : s.consume.dataReady = false := rfl
@[simp] theorem State.consume_sessionEn : s.consume.sessionEn = s.sessionEn := rfl
@[simp] theorem State.consume_sstate : s.consume.sstate = s.sstate := rfl
@[simp] theorem State.consume_name : s.consume.name = s.name := rfl
@[simp] theorem State.consume_nameLen : s.consume.nameLen = s.nameLen := rfl
@[simp] theorem State.consume_fsize : s.consume.fsize = s.fsize := rfl
@[simp] theorem State.consume_metaValid : s.consume.metaValid = s.metaValid := rfl
@[simp] theorem State.consume_tx : s.consume.tx = s.tx := rfl
@[simp] theorem State.consume_cb : s.consume.cb = s.cb := rfl
@[simp] theorem State.consume_results : s.consume.results = s.results := rfl
@[simp] theorem State.consume_waiting : s.consume.waiting = s.waiting := rfl
@[simp] theorem State.consume_env : s.consume.env = s.env := rfl
@[simp] theorem State.consume_input : s.consume.input = s.input := rfl
@[simp] theorem State.consume_freeCtr : s.consume.freeCtr = s.freeCtr := rfl

/-! ### setSessionEn -/

@[simp] theorem State.setSessionEn_crc (b : Bool) : (s.setSessionEn b).crc = s.crc := rfl
@[simp] theorem State.setSessionEn_buf (b : Bool) : (s.setSessionEn b).buf = s.buf := rfl
@[simp] theorem State.setSessionEn_rxLen (b : Bool) : (s.setSessionEn b).rxLen = s.rxLen := rfl
@[simp] theorem State.setSessionEn_dataReady (b : Bool) : (s.setSessionEn b).dataReady = s.dataReady := rfl
@[simp] theorem State.setSessionEn_sessionEn (b : Bool) : (s.setSessionEn b).sessionEn = b := rfl
@[simp] theorem State.setSessionEn_sstate (b : Bool) : (s.setSessionEn b).sstate = s.sstate := rfl
@[simp] theorem State.setSessionEn_name (b : Bool) : (s.setSessionEn b).name = s.name := rfl
@[simp] theorem State.setSessionEn_nameLen (b : Bool) : (s.setSessionEn b).nameLen = s.nameLen := rfl
@[simp] theorem State.setSessionEn_fsize (b : Bool) : (s.setSessionEn b).fsize = s.fsize := rfl
@[simp] theorem State.setSessionEn_metaValid (b : Bool) : (s.setSessionEn b).metaValid = s.metaValid := rfl
@[simp] theorem State.setSessionEn_tx (b : Bool) : (s.setSessionEn b).tx = s.tx := rfl
@[simp] theorem State.setSessionEn_cb (b : Bool) : (s.setSessionEn b).cb = s.cb := rfl
@[simp] theorem State.setSessionEn_results (b : Bool) : (s.setSessionEn b).results = s.results := rfl
@[simp] theorem State.setSessionEn_waiting (b : Bool) : (s.setSessionEn b).waiting = s.waiting := rfl
@[simp] theorem State.setSessionEn_env (b : Bool) : (s.setSessionEn b).env = s.env := rfl
@[simp] theorem State.setSessionEn_input (b : Bool) : (s.setSessionEn b).input = s.input := rfl
@[simp] theorem State.setSessionEn_freeCtr (b : Bool) : (s.setSessionEn b).freeCtr = s.freeCtr := rfl

/-! ### openMeta -/

@[simp] theorem State.openMeta_crc : s.openMeta.crc = s.crc := rfl
@[simp] theorem State.openMeta_buf : s.openMeta.buf = s.buf := rfl
@[simp] theorem State.openMeta_rxLen : s.openMeta.rxLen = s.rxLen := rfl
@[simp] theorem State.openMeta_dataReady : s.openMeta.dataReady = s.dataReady := rfl
@[simp] theorem State.openMeta_sessionEn : s.openMeta.sessionEn = s.sessionEn := rfl
@[simp] theorem State.openMeta_sstate : s.openMeta.sstate = s.sstate := rfl
@[simp] theorem State.openMeta_name : s.openMeta.name = s.name := rfl
@[simp] theorem State.openMeta_nameLen : s.openMeta.nameLen = s.nameLen := rfl
@[simp] theorem State.openMeta_fsize : s.openMeta.fsize = s.fsize := rfl
@[simp] theorem State.openMeta_metaValid : s.openMeta.metaValid = true := rfl
@[simp] theorem State.openMeta_tx : s.openMeta.tx = s.tx := rfl
@[simp] theorem State.openMeta_cb : s.openMeta.cb = s.cb := rfl
@[simp] theorem State.openMeta_results : s.openMeta.results = s.results := rfl
@[simp] theorem State.openMeta_waiting : s.openMeta.waiting = s.waiting := rfl
@[simp] theorem State.openMeta_env : s.openMeta.env = s.env := rfl
@[simp] theorem State.openMeta_input : s.openMeta.input = s.input := rfl
@[simp] theorem State.openMeta_freeCtr : s.openMeta.freeCtr = s.freeCtr := rfl

/-! ### goto -/

@[simp] theorem State.goto_crc (q : SState) : (s.goto q).crc = s.crc := rfl
@[simp] theorem State.goto_buf (q : SState) : (s.goto q).buf = s.buf := rfl
@[simp] theorem State.goto_rxLen (q : SState) : (s.goto q).rxLen = s.rxLen := rfl
@[simp] theorem State.goto_dataReady (q : SState) : (s.goto q).dataReady = s.dataReady := rfl
@[simp] theorem State.goto_sessionEn (q : SState) : (s.goto q).sessionEn = s.sessionEn := rfl
@[simp] theorem State.goto_sstate (q : SState) : (s.goto q).sstate = q := rfl
@[simp] theorem State.goto_name (q : SState) : (s.goto q).name = s.name := rfl
@[simp] theorem State.goto_nameLen (q : SState) : (s.goto q).nameLen = s.nameLen := rfl
@[simp] theorem State.goto_fsize (q : SState) : (s.goto q).fsize = s.fsize := rfl
@[simp] theorem State.goto_metaValid (q : SState) : (s.goto q).metaValid = s.metaValid := rfl
@[simp] theorem State.goto_tx (q : SState) : (s.goto q).tx = s.tx := rfl
@[simp] theorem State.goto_cb (q : SState) : (s.goto q).cb = s.cb := rfl
@[simp] theorem State.goto_results (q : SState) : (s.goto q).results = s.results := rfl
@[simp] theorem State.goto_waiting (q : SState) : (s.goto q).waiting = s.waiting := rfl
@[simp] theorem State.goto_env (q : SState) : (s.goto q).env = s.env := rfl
@[simp] theorem State.goto_input (q : SState) : (s.goto q).input = s.input := rfl
@[simp] theorem State.goto_freeCtr (q : SState) : (s.goto q).freeCtr = s.freeCtr := rfl

/-! ### closeSession -/

@[simp] theorem State.closeSession_crc : s.closeSession.crc = s.crc := rfl
@[simp] theorem State.closeSession_buf : s.closeSession.buf = s.buf := rfl
@[simp] theorem State.closeSession_rxLen : s.closeSession.rxLen = s.rxLen := rfl
@[simp] theorem State.closeSession_dataReady : s.closeSession.dataReady = false := rfl
@[simp] theorem State.closeSession_sessionEn : s.closeSession.sessionEn = false := rfl
@[simp] theorem State.closeSession_sstate : s.closeSession.sstate = .idle := rfl
@[simp] theorem State.closeSession_name : s.closeSession.name = s.name := rfl
@[simp] theorem State.closeSession_nameLen : s.closeSession.nameLen = s.nameLen := rfl
@[simp] theorem State.closeSession_fsize : s.closeSession.fsize = s.fsize := rfl
@[simp] theorem State.closeSession_metaValid : s.closeSession.metaValid = false := rfl
@[simp] theorem State.closeSession_tx : s.closeSession.tx = s.tx := rfl
@[simp] theorem State.closeSession_cb : s.closeSession.cb = s.cb := rfl
@[simp] theorem State.closeSession_results : s.closeSession.results = s.results := rfl
@[simp] theorem State.closeSession_waiting : s.closeSession.waiting = s.waiting := rfl
@[simp] theorem State.closeSession_env : s.closeSession.env = s.env := rfl
@[simp] theorem State.closeSession_input : s.closeSession.input = s.input := rfl
@[simp] theorem State.closeSession_freeCtr : s.closeSession.freeCtr = s.freeCtr := rfl

/-! ### transmit -/

@[simp] theorem State.transmit_crc (bs : List Byte) : (s.transmit bs).crc = s.crc := rfl
@[simp] theorem State.transmit_buf (bs : List Byte) : (s.transmit bs).buf = s.buf := rfl
@[simp] theorem State.transmit_rxLen (bs : List Byte) : (s.transmit bs).rxLen = s.rxLen := rfl
@[simp] theorem State.transmit_dataReady (bs : List Byte) : (s.transmit bs).dataReady = s.dataReady := rfl
@[simp] theorem State.transmit_sessionEn (bs : List Byte) : (s.transmit bs).sessionEn = s.sessionEn := rfl
@[simp] theorem State.transmit_sstate (bs : List Byte) : (s.transmit bs).sstate = s.sstate := rfl
@[simp] theorem State.transmit_name (bs : List Byte) : (s.transmit bs).name = s.name := rfl
@[simp] theorem State.transmit_nameLen (bs : List Byte) : (s.transmit bs).nameLen = s.nameLen := rfl
@[simp] theorem State.transmit_fsize (bs : List Byte) : (s.transmit bs).fsize = s.fsize := rfl
@[simp] theorem State.transmit_metaValid (bs : List Byte) : (s.transmit bs).metaValid = s.metaValid := rfl
@[simp] theorem State.transmit_tx (bs : List Byte) : (s.transmit bs).tx = s.tx ++ bs := rfl
@[simp] theorem State.transmit_cb (bs : List Byte) : (s.transmit bs).cb = s.cb := rfl
@[simp] theorem State.transmit_results (bs : List Byte) : (s.transmit bs).results = s.results := rfl
@[simp] theorem State.transmit_waiting (bs : List Byte) : (s.transmit bs).waiting = s.waiting := rfl
@[simp] theorem State.transmit_env (bs : List Byte) : (s.transmit bs).env = s.env := rfl
@[simp] theorem State.transmit_input (bs : List Byte) : (s.transmit bs).input = s.input := rfl
@[simp] theorem State.transmit_freeCtr (bs : List Byte) : (s.transmit bs).freeCtr = s.freeCtr := rfl

/-! ### call -/

@[simp] theorem State.call_crc (c : Callback) : (s.call c).crc = s.crc := rfl
@[simp] theorem State.call_buf (c : Callback) : (s.call c).buf = s.buf := rfl
@[simp] theorem State.call_rxLen (c : Callback) : (s.call c).rxLen = s.rxLen := rfl
@[simp] theorem State.call_dataReady (c : Callback) : (s.call c).dataReady = s.dataReady := rfl
@[simp] theorem State.call_sessionEn (c : Callback) : (s.call c).sessionEn = s.sessionEn := rfl
@[simp] theorem State.call_sstate (c : Callback) : (s.call c).sstate = s.sstate := rfl
@[simp] theorem State.call_name (c : Callback) : (s.call c).name = s.name := rfl
@[simp] theorem State.call_nameLen (c : Callback) : (s.call c).nameLen = s.nameLen := rfl
@[simp] theorem State.call_fsize (c : Callback) : (s.call c).fsize = s.fsize := rfl
@[simp] theorem State.call_metaValid (c : Callback) : (s.call c).metaValid = s.metaValid := rfl
@[simp] theorem State.call_tx (c : Callback) : (s.call c).tx = s.tx := rfl
@[simp] theorem State.call_cb (c : Callback) : (s.call c).cb = s.cb ++ [c] := rfl
@[simp] theorem State.call_results (c : Callback) : (s.call c).results = s.results := rfl
@[simp] theorem State.call_waiting (c : Callback) : (s.call c).waiting = s.waiting := rfl
@[simp] theorem State.call_env (c : Callback) : (s.call c).env = s.env := rfl
@[simp] theorem State.call_input (c : Callback) : (s.call c).input = s.input := rfl
@[simp] theorem State.call_freeCtr (c : Callback) : (s.call c).freeCtr = s.freeCtr := rfl

/-! ### emit -/

@[simp] theorem State.emit_crc (r : Result) : (s.emit r).crc = s.crc := rfl
@[simp] theorem State.emit_buf (r : Result) : (s.emit r).buf = s.buf := rfl
@[simp] theorem State.emit_rxLen (r : Result) : (s.emit r).rxLen = s.rxLen := rfl
@[simp] theorem State.emit_dataReady (r : Result) : (s.emit r).dataReady = s.dataReady := rfl
@[simp] theorem State.emit_sessionEn (r : Result) : (s.emit r).sessionEn = s.sessionEn := rfl
@[simp] theorem State.emit_sstate (r : Result) : (s.emit r).sstate = s.sstate := rfl
@[simp] theorem State.emit_name (r : Result) : (s.emit r).name = s.name := rfl
@[simp] theorem State.emit_nameLen (r : Result) : (s.emit r).nameLen = s.nameLen := rfl
@[simp] theorem State.emit_fsize (r : Result) : (s.emit r).fsize = s.fsize := rfl
@[simp] theorem State.emit_metaValid (r : Result) : (s.emit r).metaValid = s.metaValid := rfl
@[simp] theorem State.emit_tx (r : Result) : (s.emit r).tx = s.tx := rfl
@[simp] theorem State.emit_cb (r : Result) : (s.emit r).cb = s.cb := rfl
@[simp] theorem State.emit_results (r : Result) : (s.emit r).results = s.results ++ [r] := rfl
@[simp] theorem State.emit_waiting (r : Result) : (s.emit r).waiting = s.waiting := rfl
@[simp] theorem State.emit_env (r : Result) : (s.emit r).env = s.env := rfl
@[simp] theorem State.emit_input (r : Result) : (s.emit r).input = s.input := rfl
@[simp] theorem State.emit_freeCtr (r : Result) : (s.emit r).freeCtr = s.freeCtr := rfl

/-! ### beginWait -/

@[simp] theorem State.beginWait_crc (ms : Nat) : (s.beginWait ms).crc = s.crc := rfl
@[simp] theorem State.beginWait_buf (ms : Nat) : (s.beginWait ms).buf = s.buf := rfl
@[simp] theorem State.beginWait_rxLen (ms : Nat) : (s.beginWait ms).rxLen = s.rxLen := rfl
@[simp] theorem State.beginWait_dataReady (ms : Nat) : (s.beginWait ms).dataReady = s.dataReady := rfl
@[simp] theorem State.beginWait_sessionEn (ms : Nat) : (s.beginWait ms).sessionEn = s.sessionEn := rfl
@[simp] theorem State.beginWait_sstate (ms : Nat) : (s.beginWait ms).sstate = s.sstate := rfl
@[simp] theorem State.beginWait_name (ms : Nat) : (s.beginWait ms).name = s.name := rfl
@[simp] theorem State.beginWait_nameLen (ms : Nat) : (s.beginWait ms).nameLen = s.nameLen := rfl
@[simp] theorem State.beginWait_fsize (ms : Nat) : (s.beginWait ms).fsize = s.fsize := rfl
@[simp] theorem State.beginWait_metaValid (ms : Nat) : (s.beginWait ms).metaValid = s.metaValid := rfl
@[simp] theorem State.beginWait_tx (ms : Nat) : (s.beginWait ms).tx = s.tx := rfl
@[simp] theorem State.beginWait_cb (ms : Nat) : (s.beginWait ms).cb = s.cb := rfl
@[simp] theorem State.beginWait_results (ms : Nat) : (s.beginWait ms).results = s.results := rfl
@[simp] theorem State.beginWait_waiting (ms : Nat) : (s.beginWait ms).waiting = some ms := rfl
@[simp] theorem State.beginWait_env (ms : Nat) : (s.beginWait ms).env = s.env := rfl
@[simp] theorem State.beginWait_input (ms : Nat) : (s.beginWait ms).input = s.input := rfl
@[simp] theorem State.beginWait_freeCtr (ms : Nat) : (s.beginWait ms).freeCtr = s.freeCtr := rfl

/-! ### endWait -/

@[simp] theorem State.endWait_crc : s.endWait.crc = s.crc := rfl
@[simp] theorem State.endWait_buf : s.endWait.buf = s.buf := rfl
@[simp] theorem State.endWait_rxLen : s.endWait.rxLen = s.rxLen := rfl
@[simp] theorem State.endWait_dataReady : s.endWait.dataReady = s.dataReady := rfl
@[simp] theorem State.endWait_sessionEn : s.endWait.sessionEn = s.sessionEn := rfl
@[simp] theorem State.endWait_sstate : s.endWait.sstate = s.sstate := rfl
@[simp] theorem State.endWait_name : s.endWait.name = s.name := rfl
@[simp] theorem State.endWait_nameLen : s.endWait.nameLen = s.nameLen := rfl
@[simp] theorem State.endWait_fsize : s.endWait.fsize = s.fsize := rfl
@[simp] theorem State.endWait_metaValid : s.endWait.metaValid = s.metaValid := rfl
@[simp] theorem State.endWait_tx : s.endWait.tx = s.tx := rfl
@[simp] theorem State.endWait_cb : s.endWait.cb = s.cb := rfl
@[simp] theorem State.endWait_results : s.endWait.results = s.results := rfl
@[simp] theorem State.endWait_waiting : s.endWait.waiting = none := rfl
@[simp] theorem State.endWait_env : s.endWait.env = s.env := rfl
@[simp] theorem State.endWait_input : s.endWait.input = s.input := rfl
@[simp] theorem State.endWait_freeCtr : s.endWait.freeCtr = s.freeCtr := rfl

/-! ### receive -/

@[simp] theorem State.receive_crc (bs : List Byte) : (s.receive bs).crc = s.crc := rfl
@[simp] theorem State.receive_buf (bs : List Byte) : (s.receive bs).buf = s.buf.overwrite bs := rfl
@[simp] theorem State.receive_rxLen (bs : List Byte) : (s.receive bs).rxLen = BitVec.ofNat 11 bs.length := rfl
@[simp] theorem State.receive_dataReady (bs : List Byte) : (s.receive bs).dataReady = true := rfl
@[simp] theorem State.receive_sessionEn (bs : List Byte) : (s.receive bs).sessionEn = s.sessionEn := rfl
@[simp] theorem State.receive_sstate (bs : List Byte) : (s.receive bs).sstate = s.sstate := rfl
@[simp] theorem State.receive_name (bs : List Byte) : (s.receive bs).name = s.name := rfl
@[simp] theorem State.receive_nameLen (bs : List Byte) : (s.receive bs).nameLen = s.nameLen := rfl
@[simp] theorem State.receive_fsize (bs : List Byte) : (s.receive bs).fsize = s.fsize := rfl
@[simp] theorem State.receive_metaValid (bs : List Byte) : (s.receive bs).metaValid = s.metaValid := rfl
@[simp] theorem State.receive_tx (bs : List Byte) : (s.receive bs).tx = s.tx := rfl
@[simp] theorem State.receive_cb (bs : List Byte) : (s.receive bs).cb = s.cb := rfl
@[simp] theorem State.receive_results (bs : List Byte) : (s.receive bs).results = s.results := rfl
@[simp] theorem State.receive_waiting (bs : List Byte) : (s.receive bs).waiting = s.waiting := rfl
@[simp] theorem State.receive_env (bs : List Byte) : (s.receive bs).env = s.env := rfl
@[simp] theorem State.receive_input (bs : List Byte) : (s.receive bs).input = s.input := rfl
@[simp] theorem State.receive_freeCtr (bs : List Byte) : (s.receive bs).freeCtr = s.freeCtr := rfl

/-! ### setCrc -/

@[simp] theorem State.setCrc_crc (c : Word16) : (s.setCrc c).crc = c := rfl
@[simp] theorem State.setCrc_buf (c : Word16) : (s.setCrc c).buf = s.buf := rfl
@[simp] theorem State.setCrc_rxLen (c : Word16) : (s.setCrc c).rxLen = s.rxLen := rfl
@[simp] theorem State.setCrc_dataReady (c : Word16) : (s.setCrc c).dataReady = s.dataReady := rfl
@[simp] theorem State.setCrc_sessionEn (c : Word16) : (s.setCrc c).sessionEn = s.sessionEn := rfl
@[simp] theorem State.setCrc_sstate (c : Word16) : (s.setCrc c).sstate = s.sstate := rfl
@[simp] theorem State.setCrc_name (c : Word16) : (s.setCrc c).name = s.name := rfl
@[simp] theorem State.setCrc_nameLen (c : Word16) : (s.setCrc c).nameLen = s.nameLen := rfl
@[simp] theorem State.setCrc_fsize (c : Word16) : (s.setCrc c).fsize = s.fsize := rfl
@[simp] theorem State.setCrc_metaValid (c : Word16) : (s.setCrc c).metaValid = s.metaValid := rfl
@[simp] theorem State.setCrc_tx (c : Word16) : (s.setCrc c).tx = s.tx := rfl
@[simp] theorem State.setCrc_cb (c : Word16) : (s.setCrc c).cb = s.cb := rfl
@[simp] theorem State.setCrc_results (c : Word16) : (s.setCrc c).results = s.results := rfl
@[simp] theorem State.setCrc_waiting (c : Word16) : (s.setCrc c).waiting = s.waiting := rfl
@[simp] theorem State.setCrc_env (c : Word16) : (s.setCrc c).env = s.env := rfl
@[simp] theorem State.setCrc_input (c : Word16) : (s.setCrc c).input = s.input := rfl
@[simp] theorem State.setCrc_freeCtr (c : Word16) : (s.setCrc c).freeCtr = s.freeCtr := rfl

/-! ### setHeader -/

@[simp] theorem State.setHeader_crc (nm : List Byte) (sz : Word32) : (s.setHeader nm sz).crc = s.crc := rfl
@[simp] theorem State.setHeader_buf (nm : List Byte) (sz : Word32) : (s.setHeader nm sz).buf = s.buf := rfl
@[simp] theorem State.setHeader_rxLen (nm : List Byte) (sz : Word32) : (s.setHeader nm sz).rxLen = s.rxLen := rfl
@[simp] theorem State.setHeader_dataReady (nm : List Byte) (sz : Word32) : (s.setHeader nm sz).dataReady = s.dataReady := rfl
@[simp] theorem State.setHeader_sessionEn (nm : List Byte) (sz : Word32) : (s.setHeader nm sz).sessionEn = s.sessionEn := rfl
@[simp] theorem State.setHeader_sstate (nm : List Byte) (sz : Word32) : (s.setHeader nm sz).sstate = s.sstate := rfl
@[simp] theorem State.setHeader_name (nm : List Byte) (sz : Word32) : (s.setHeader nm sz).name = nameCells s.freeCtr nm := rfl
@[simp] theorem State.setHeader_nameLen (nm : List Byte) (sz : Word32) : (s.setHeader nm sz).nameLen = BitVec.ofNat 6 nm.length := rfl
@[simp] theorem State.setHeader_fsize (nm : List Byte) (sz : Word32) : (s.setHeader nm sz).fsize = sz := rfl
@[simp] theorem State.setHeader_metaValid (nm : List Byte) (sz : Word32) : (s.setHeader nm sz).metaValid = s.metaValid := rfl
@[simp] theorem State.setHeader_tx (nm : List Byte) (sz : Word32) : (s.setHeader nm sz).tx = s.tx := rfl
@[simp] theorem State.setHeader_cb (nm : List Byte) (sz : Word32) : (s.setHeader nm sz).cb = s.cb := rfl
@[simp] theorem State.setHeader_results (nm : List Byte) (sz : Word32) : (s.setHeader nm sz).results = s.results := rfl
@[simp] theorem State.setHeader_waiting (nm : List Byte) (sz : Word32) : (s.setHeader nm sz).waiting = s.waiting := rfl
@[simp] theorem State.setHeader_env (nm : List Byte) (sz : Word32) : (s.setHeader nm sz).env = s.env := rfl
@[simp] theorem State.setHeader_input (nm : List Byte) (sz : Word32) : (s.setHeader nm sz).input = s.input := rfl
@[simp] theorem State.setHeader_freeCtr (nm : List Byte) (sz : Word32) : (s.setHeader nm sz).freeCtr = s.freeCtr + 1 := rfl

/-! ### withEnv -/

@[simp] theorem State.withEnv_crc (e : Env) : (s.withEnv e).crc = s.crc := rfl
@[simp] theorem State.withEnv_buf (e : Env) : (s.withEnv e).buf = s.buf := rfl
@[simp] theorem State.withEnv_rxLen (e : Env) : (s.withEnv e).rxLen = s.rxLen := rfl
@[simp] theorem State.withEnv_dataReady (e : Env) : (s.withEnv e).dataReady = s.dataReady := rfl
@[simp] theorem State.withEnv_sessionEn (e : Env) : (s.withEnv e).sessionEn = s.sessionEn := rfl
@[simp] theorem State.withEnv_sstate (e : Env) : (s.withEnv e).sstate = s.sstate := rfl
@[simp] theorem State.withEnv_name (e : Env) : (s.withEnv e).name = s.name := rfl
@[simp] theorem State.withEnv_nameLen (e : Env) : (s.withEnv e).nameLen = s.nameLen := rfl
@[simp] theorem State.withEnv_fsize (e : Env) : (s.withEnv e).fsize = s.fsize := rfl
@[simp] theorem State.withEnv_metaValid (e : Env) : (s.withEnv e).metaValid = s.metaValid := rfl
@[simp] theorem State.withEnv_tx (e : Env) : (s.withEnv e).tx = s.tx := rfl
@[simp] theorem State.withEnv_cb (e : Env) : (s.withEnv e).cb = s.cb := rfl
@[simp] theorem State.withEnv_results (e : Env) : (s.withEnv e).results = s.results := rfl
@[simp] theorem State.withEnv_waiting (e : Env) : (s.withEnv e).waiting = s.waiting := rfl
@[simp] theorem State.withEnv_env (e : Env) : (s.withEnv e).env = e := rfl
@[simp] theorem State.withEnv_input (e : Env) : (s.withEnv e).input = s.input := rfl
@[simp] theorem State.withEnv_freeCtr (e : Env) : (s.withEnv e).freeCtr = s.freeCtr := rfl

/-! ### withInput -/

@[simp] theorem State.withInput_crc (xs : List Stimulus) : (s.withInput xs).crc = s.crc := rfl
@[simp] theorem State.withInput_buf (xs : List Stimulus) : (s.withInput xs).buf = s.buf := rfl
@[simp] theorem State.withInput_rxLen (xs : List Stimulus) : (s.withInput xs).rxLen = s.rxLen := rfl
@[simp] theorem State.withInput_dataReady (xs : List Stimulus) : (s.withInput xs).dataReady = s.dataReady := rfl
@[simp] theorem State.withInput_sessionEn (xs : List Stimulus) : (s.withInput xs).sessionEn = s.sessionEn := rfl
@[simp] theorem State.withInput_sstate (xs : List Stimulus) : (s.withInput xs).sstate = s.sstate := rfl
@[simp] theorem State.withInput_name (xs : List Stimulus) : (s.withInput xs).name = s.name := rfl
@[simp] theorem State.withInput_nameLen (xs : List Stimulus) : (s.withInput xs).nameLen = s.nameLen := rfl
@[simp] theorem State.withInput_fsize (xs : List Stimulus) : (s.withInput xs).fsize = s.fsize := rfl
@[simp] theorem State.withInput_metaValid (xs : List Stimulus) : (s.withInput xs).metaValid = s.metaValid := rfl
@[simp] theorem State.withInput_tx (xs : List Stimulus) : (s.withInput xs).tx = s.tx := rfl
@[simp] theorem State.withInput_cb (xs : List Stimulus) : (s.withInput xs).cb = s.cb := rfl
@[simp] theorem State.withInput_results (xs : List Stimulus) : (s.withInput xs).results = s.results := rfl
@[simp] theorem State.withInput_waiting (xs : List Stimulus) : (s.withInput xs).waiting = s.waiting := rfl
@[simp] theorem State.withInput_env (xs : List Stimulus) : (s.withInput xs).env = s.env := rfl
@[simp] theorem State.withInput_input (xs : List Stimulus) : (s.withInput xs).input = xs := rfl
@[simp] theorem State.withInput_freeCtr (xs : List Stimulus) : (s.withInput xs).freeCtr = s.freeCtr := rfl

/-! ### The bytes of the buffer after an update that leaves it alone -/

@[simp] theorem State.consume_byte (k : Nat) : s.consume.byte k = s.byte k := rfl
@[simp] theorem State.setSessionEn_byte (b : Bool) (k : Nat) : (s.setSessionEn b).byte k = s.byte k := rfl
@[simp] theorem State.openMeta_byte (k : Nat) : s.openMeta.byte k = s.byte k := rfl
@[simp] theorem State.goto_byte (q : SState) (k : Nat) : (s.goto q).byte k = s.byte k := rfl
@[simp] theorem State.closeSession_byte (k : Nat) : s.closeSession.byte k = s.byte k := rfl
@[simp] theorem State.transmit_byte (bs : List Byte) (k : Nat) : (s.transmit bs).byte k = s.byte k := rfl
@[simp] theorem State.call_byte (c : Callback) (k : Nat) : (s.call c).byte k = s.byte k := rfl
@[simp] theorem State.emit_byte (r : Result) (k : Nat) : (s.emit r).byte k = s.byte k := rfl
@[simp] theorem State.beginWait_byte (ms : Nat) (k : Nat) : (s.beginWait ms).byte k = s.byte k := rfl
@[simp] theorem State.endWait_byte (k : Nat) : s.endWait.byte k = s.byte k := rfl
@[simp] theorem State.setCrc_byte (c : Word16) (k : Nat) : (s.setCrc c).byte k = s.byte k := rfl
@[simp] theorem State.setHeader_byte (nm : List Byte) (sz : Word32) (k : Nat) : (s.setHeader nm sz).byte k = s.byte k := rfl
@[simp] theorem State.withEnv_byte (e : Env) (k : Nat) : (s.withEnv e).byte k = s.byte k := rfl
@[simp] theorem State.withInput_byte (xs : List Stimulus) (k : Nat) : (s.withInput xs).byte k = s.byte k := rfl

/-! ### The regions after such an update -/

@[simp] theorem State.consume_bytes (off n : Nat) : s.consume.bytes off n = s.bytes off n := rfl
@[simp] theorem State.setSessionEn_bytes (b : Bool) (off n : Nat) : (s.setSessionEn b).bytes off n = s.bytes off n := rfl
@[simp] theorem State.openMeta_bytes (off n : Nat) : s.openMeta.bytes off n = s.bytes off n := rfl
@[simp] theorem State.goto_bytes (q : SState) (off n : Nat) : (s.goto q).bytes off n = s.bytes off n := rfl
@[simp] theorem State.closeSession_bytes (off n : Nat) : s.closeSession.bytes off n = s.bytes off n := rfl
@[simp] theorem State.transmit_bytes (bs : List Byte) (off n : Nat) : (s.transmit bs).bytes off n = s.bytes off n := rfl
@[simp] theorem State.call_bytes (c : Callback) (off n : Nat) : (s.call c).bytes off n = s.bytes off n := rfl
@[simp] theorem State.emit_bytes (r : Result) (off n : Nat) : (s.emit r).bytes off n = s.bytes off n := rfl
@[simp] theorem State.beginWait_bytes (ms : Nat) (off n : Nat) : (s.beginWait ms).bytes off n = s.bytes off n := rfl
@[simp] theorem State.endWait_bytes (off n : Nat) : s.endWait.bytes off n = s.bytes off n := rfl
@[simp] theorem State.setCrc_bytes (c : Word16) (off n : Nat) : (s.setCrc c).bytes off n = s.bytes off n := rfl
@[simp] theorem State.setHeader_bytes (nm : List Byte) (sz : Word32) (off n : Nat) : (s.setHeader nm sz).bytes off n = s.bytes off n := rfl
@[simp] theorem State.withEnv_bytes (e : Env) (off n : Nat) : (s.withEnv e).bytes off n = s.bytes off n := rfl
@[simp] theorem State.withInput_bytes (xs : List Stimulus) (off n : Nat) : (s.withInput xs).bytes off n = s.bytes off n := rfl
@[simp] theorem State.consume_payload (n : Nat) : s.consume.payload n = s.payload n := rfl
@[simp] theorem State.setSessionEn_payload (b : Bool) (n : Nat) : (s.setSessionEn b).payload n = s.payload n := rfl
@[simp] theorem State.openMeta_payload (n : Nat) : s.openMeta.payload n = s.payload n := rfl
@[simp] theorem State.goto_payload (q : SState) (n : Nat) : (s.goto q).payload n = s.payload n := rfl
@[simp] theorem State.closeSession_payload (n : Nat) : s.closeSession.payload n = s.payload n := rfl
@[simp] theorem State.transmit_payload (bs : List Byte) (n : Nat) : (s.transmit bs).payload n = s.payload n := rfl
@[simp] theorem State.call_payload (c : Callback) (n : Nat) : (s.call c).payload n = s.payload n := rfl
@[simp] theorem State.emit_payload (r : Result) (n : Nat) : (s.emit r).payload n = s.payload n := rfl
@[simp] theorem State.beginWait_payload (ms : Nat) (n : Nat) : (s.beginWait ms).payload n = s.payload n := rfl
@[simp] theorem State.endWait_payload (n : Nat) : s.endWait.payload n = s.payload n := rfl
@[simp] theorem State.setCrc_payload (c : Word16) (n : Nat) : (s.setCrc c).payload n = s.payload n := rfl
@[simp] theorem State.setHeader_payload (nm : List Byte) (sz : Word32) (n : Nat) : (s.setHeader nm sz).payload n = s.payload n := rfl
@[simp] theorem State.withEnv_payload (e : Env) (n : Nat) : (s.withEnv e).payload n = s.payload n := rfl
@[simp] theorem State.withInput_payload (xs : List Stimulus) (n : Nat) : (s.withInput xs).payload n = s.payload n := rfl

/-! ### The injected operations -/

@[simp] theorem acceptHeader_fst (nm : List Byte) (sz : Word32) : (acceptHeader nm sz s).1 = s.env.hdrRet := rfl
@[simp] theorem acceptHeader_snd (nm : List Byte) (sz : Word32) :
    (acceptHeader nm sz s).2 = s.call (.acceptHeader nm sz) := rfl
@[simp] theorem acceptPayload_fst (off n : Nat) : (acceptPayload off n s).1 = s.env.payRet := rfl
@[simp] theorem acceptPayload_snd (off n : Nat) :
    (acceptPayload off n s).2 = s.call (.acceptPayload off n (s.bytes off n)) := rfl
@[simp] theorem acceptEnd_fst : (acceptEnd s).1 = s.env.endRet := rfl
@[simp] theorem acceptEnd_snd : (acceptEnd s).2 = s.call .acceptEnd := rfl

end Sys2Proof.Machine
end

