-- ==== Sys2Proof/Laws/Memory.lean ====
section
/-! SUPPORT. The laws of the packet buffer: what a read gives after a delivery, that regions are read byte by byte, and that
a delivery keeps the canonical form. -/

namespace Sys2Proof.Machine

/-! ### Reading -/

@[simp] theorem Memory.read_nil (a : Nat) : Memory.read [] a = Memory.unlisted := rfl

theorem Memory.seek_seek (m : Memory) {a b : Nat} (h : a ≤ b) : (m.seek a).seek b = m.seek b := by
  induction m with
  | nil => rfl
  | cons c m ih =>
    by_cases hc : c.1 < a
    · have hb : c.1 < b := by omega
      simpa [Memory.seek, List.dropWhile_cons, hc, hb] using ih
    · simp [Memory.seek, List.dropWhile_cons, hc]

/-- A region is read byte by byte. -/
theorem Memory.walk_eq (n a : Nat) (m : Memory) : Memory.walk n a m = (List.range' a n).map m.read := by
  induction n generalizing a m with
  | zero => rfl
  | succ n ih =>
    rw [Memory.walk, ih, List.range'_succ, List.map_cons]
    congr 1
    refine List.map_congr_left fun b hb => ?_
    have : a ≤ b := by have := List.mem_range'_1.mp hb; omega
    rw [Memory.read, Memory.seek_seek m this, Memory.read]

theorem State.bytes_eq (s : State) (off n : Nat) : s.bytes off n = (List.range' off n).map s.byte :=
  Memory.walk_eq n off s.buf

@[simp] theorem State.bytes_length (s : State) (off n : Nat) : (s.bytes off n).length = n := by
  simp [State.bytes_eq]

@[simp] theorem State.bytes_getElem (s : State) (off n i : Nat) (h : i < (s.bytes off n).length) :
    (s.bytes off n)[i] = s.byte (off + i) := by
  simp [State.bytes_eq]

/-- Equal bytes, equal regions. -/
theorem State.bytes_congr {s t : State} {off n : Nat} (h : ∀ a, off ≤ a → a < off + n → s.byte a = t.byte a) :
    s.bytes off n = t.bytes off n := by
  rw [State.bytes_eq, State.bytes_eq]
  refine List.map_congr_left fun a ha => ?_
  have := List.mem_range'_1.mp ha
  exact h a this.1 this.2

/-! ### Entries of a delivered unit -/

theorem Memory.cells_bounds {a : Nat} {bytes : List Byte} {c : Host.Cell} (h : c ∈ Memory.cells a bytes) :
    a ≤ c.1 ∧ c.1 < a + bytes.length ∧ c.2 ≠ Memory.unlisted := by
  induction bytes generalizing a with
  | nil => simp [Memory.cells] at h
  | cons b bytes ih =>
    rw [Memory.cells] at h
    split at h
    · have := ih h
      exact ⟨by omega, by simp only [List.length_cons]; omega, this.2.2⟩
    · rcases List.mem_cons.mp h with rfl | h
      · simp only [List.length_cons]; refine ⟨le_rfl, by omega, ‹_›⟩
      · have := ih h
        exact ⟨by omega, by simp only [List.length_cons]; omega, this.2.2⟩

theorem Memory.cells_sorted (a : Nat) (bytes : List Byte) : (Memory.cells a bytes).Pairwise fun c d => c.1 < d.1 := by
  induction bytes generalizing a with
  | nil => exact List.Pairwise.nil
  | cons b bytes ih =>
    rw [Memory.cells]
    split
    · exact ih (a + 1)
    · refine List.pairwise_cons.mpr ⟨fun c hc => ?_, ih (a + 1)⟩
      have := (Memory.cells_bounds hc).1
      simp only; omega

/-- Entries above `a` read as nothing at `a`. -/
theorem Memory.read_above {m : Memory} {a : Nat} (h : ∀ c ∈ m, a < c.1) : m.read a = Memory.unlisted := by
  cases m with
  | nil => rfl
  | cons c m =>
    have hc := h c List.mem_cons_self
    have : ¬ c.1 < a := by omega
    have hne : c.1 ≠ a := by omega
    simp [Memory.read, Memory.seek, Memory.headAt, this, hne]

/-- Entries below `a` do not matter at `a`. -/
theorem Memory.read_append_below {m m' : Memory} {a : Nat} (h : ∀ c ∈ m, c.1 < a) : (m ++ m').read a = m'.read a := by
  induction m with
  | nil => rfl
  | cons c m ih =>
    have hc := h c List.mem_cons_self
    have := ih fun d hd => h d (List.mem_cons_of_mem _ hd)
    simpa [Memory.read, Memory.seek, hc] using this

theorem Memory.read_cells_append {a i : Nat} {bytes : List Byte} {m : Memory} (hi : i < bytes.length)
    (hm : ∀ c ∈ m, a + bytes.length ≤ c.1) : (Memory.cells a bytes ++ m).read (a + i) = bytes[i] := by
  induction bytes generalizing a i with
  | nil => simp at hi
  | cons b bytes ih =>
    simp only [List.length_cons] at hi hm
    cases i with
    | zero =>
      have above : ∀ c ∈ Memory.cells (a + 1) bytes ++ m, a < c.1 := by
        intro c hc
        rcases List.mem_append.mp hc with hc | hc
        · have := (Memory.cells_bounds hc).1; omega
        · have := hm c hc; omega
      rw [Memory.cells]
      split
      · next hb => simpa [hb] using Memory.read_above above
      · simp [Memory.read, Memory.seek, Memory.headAt]
    | succ i =>
      have tail := ih (a := a + 1) (i := i) (by omega) (fun c hc => by have := hm c hc; omega)
      have hcomm : a + 1 + i = a + (i + 1) := by omega
      rw [hcomm] at tail
      rw [Memory.cells]
      split
      · simpa using tail
      · have below : ∀ c ∈ [((a, b) : Host.Cell)], c.1 < a + (i + 1) := by
          intro c hc; simp only [List.mem_singleton] at hc; subst hc; simp only; omega
        have := Memory.read_append_below (m' := Memory.cells (a + 1) bytes ++ m) below
        simpa [tail] using this

/-- Filtering away entries below `n` does not change a read at `n` or above. -/
theorem Memory.read_filter (m : Memory) {n a : Nat} (h : n ≤ a) :
    Memory.read (m.filter fun c => decide (n ≤ c.1)) a = m.read a := by
  induction m with
  | nil => rfl
  | cons c m ih =>
    by_cases hn : n ≤ c.1
    · by_cases ha : c.1 < a
      · simpa [Memory.read, Memory.seek, hn, ha] using ih
      · simp [Memory.read, Memory.seek, Memory.headAt, hn, ha]
    · have ha : c.1 < a := by omega
      simpa [Memory.read, Memory.seek, hn, ha] using ih

/-! ### A delivery -/

/-- What the buffer reads as after a delivery (20_memory.md R57). -/
theorem Memory.overwrite_read (m : Memory) (bytes : List Byte) (a : Nat) :
    (m.overwrite bytes).read a = if h : a < bytes.length then bytes[a] else m.read a := by
  have hf : ∀ c ∈ m.filter fun c => decide (bytes.length ≤ c.1), 0 + bytes.length ≤ c.1 := by
    intro c hc; simpa using (List.mem_filter.mp hc).2
  split
  · next h => simpa [Memory.overwrite] using Memory.read_cells_append (a := 0) h hf
  · next h =>
    have below : ∀ c ∈ Memory.cells 0 bytes, c.1 < a := by
      intro c hc; have := (Memory.cells_bounds hc).2.1; omega
    rw [Memory.overwrite, Memory.read_append_below below, Memory.read_filter m (by omega)]

/-- A delivery keeps the canonical form. -/
theorem Memory.overwrite_wf {m : Memory} {bytes : List Byte} (hm : m.wf) (hb : bytes.length ≤ Config.bufCap) :
    (m.overwrite bytes).wf := by
  refine ⟨List.pairwise_append.mpr ⟨Memory.cells_sorted 0 bytes, hm.1.filter _, fun c hc d hd => ?_⟩, fun c hc => ?_⟩
  · have := (Memory.cells_bounds hc).2.1
    have : bytes.length ≤ d.1 := by simpa using (List.mem_filter.mp hd).2
    omega
  · rcases List.mem_append.mp hc with hc | hc
    · have := Memory.cells_bounds hc
      exact ⟨this.2.2, by omega⟩
    · exact hm.2 c (List.mem_filter.mp hc).1

theorem Memory.reset_wf : State.reset.buf.wf := by decide

theorem State.receive_byte (s : State) (bytes : List Byte) (a : Nat) :
    (s.receive bytes).byte a = if h : a < bytes.length then bytes[a] else s.byte a :=
  Memory.overwrite_read s.buf bytes a

theorem State.receive_byte_lt (s : State) (bytes : List Byte) {a : Nat} (h : a < bytes.length) :
    (s.receive bytes).byte a = bytes[a] := by
  simp [State.receive_byte, h]

theorem State.receive_byte_ge (s : State) (bytes : List Byte) {a : Nat} (h : bytes.length ≤ a) :
    (s.receive bytes).byte a = s.byte a := by
  simp [State.receive_byte, Nat.not_lt.mpr h]

end Sys2Proof.Machine
end

