-- ==== Sys2Proof/Laws/Ops.lean ====
section
/-! SUPPORT. What each shared operation can do: the strict application, the delivery, the abort sequence. -/

namespace Sys2Proof.Machine

@[simp] theorem strictly_eq {w : Nat} {α : Type} (c : BitVec w) (k : BitVec w → α) : strictly c k = k c := by
  have hc : BitVec.ofNat w c.toNat = c := by simp
  unfold strictly
  split
  · next h => rw [h] at hc; rw [← hc]; rfl
  · next n h => rw [← Nat.succ_eq_add_one, ← h, hc]

/-! ### The delivery -/

/-- When a delivery answers a next state, and which. -/
theorem deliver_next_iff {bytes : List Byte} {s t : State} :
    deliver bytes s = .next t ↔ s.dataReady = false ∧ bytes.length ≤ Config.bufCap ∧ t = s.receive bytes := by
  unfold deliver
  cases s.dataReady <;> by_cases h : Config.bufCap < bytes.length
  · simp [h]
  · simp [h, Nat.le_of_not_lt h, eq_comm]
  · simp
  · simp

theorem deliver_next {bytes : List Byte} {s : State} (hr : s.dataReady = false) (hl : bytes.length ≤ Config.bufCap) :
    deliver bytes s = .next (s.receive bytes) :=
  deliver_next_iff.mpr ⟨hr, hl, rfl⟩

theorem deliver_ready {bytes : List Byte} {s : State} (hr : s.dataReady = true) :
    deliver bytes s = .refused .deliveryWhileReady := by
  simp [deliver, hr]

theorem receive_rxLen_toNat (s : State) {bytes : List Byte} (hl : bytes.length ≤ Config.bufCap) :
    (s.receive bytes).rxLen.toNat = bytes.length := by
  have : Config.bufCap = 1029 := rfl
  simp only [State.receive_rxLen, BitVec.toNat_ofNat]
  omega

/-! ### The abort sequence -/

section
variable (p : Config.Params) (s : State)

theorem abort_eq : abort p s =
    { s with tx := s.tx ++ [p.abortByte], sessionEn := false, dataReady := false, metaValid := false, sstate := .idle } := rfl

@[simp] theorem abort_crc : (abort p s).crc = s.crc := rfl
@[simp] theorem abort_buf : (abort p s).buf = s.buf := rfl
@[simp] theorem abort_rxLen : (abort p s).rxLen = s.rxLen := rfl
@[simp] theorem abort_dataReady : (abort p s).dataReady = false := rfl
@[simp] theorem abort_sessionEn : (abort p s).sessionEn = false := rfl
@[simp] theorem abort_sstate : (abort p s).sstate = .idle := rfl
@[simp] theorem abort_name : (abort p s).name = s.name := rfl
@[simp] theorem abort_nameLen : (abort p s).nameLen = s.nameLen := rfl
@[simp] theorem abort_fsize : (abort p s).fsize = s.fsize := rfl
@[simp] theorem abort_metaValid : (abort p s).metaValid = false := rfl
@[simp] theorem abort_tx : (abort p s).tx = s.tx ++ [p.abortByte] := rfl
@[simp] theorem abort_cb : (abort p s).cb = s.cb := rfl
@[simp] theorem abort_results : (abort p s).results = s.results := rfl
@[simp] theorem abort_waiting : (abort p s).waiting = s.waiting := rfl
@[simp] theorem abort_env : (abort p s).env = s.env := rfl
@[simp] theorem abort_input : (abort p s).input = s.input := rfl
@[simp] theorem abort_freeCtr : (abort p s).freeCtr = s.freeCtr := rfl
end

end Sys2Proof.Machine
end

