-- ==== Sys2Proof/Laws/Crc.lean ====
section
/-! SUPPORT. The CRC functions: their equations without the strict application, and the laws of one bit step. -/

namespace Sys2Proof.Machine

@[simp] theorem crc16From_nil (c : Word16) : crc16From [] c = c := rfl

@[simp] theorem crc16From_cons (b : Byte) (bytes : List Byte) (c : Word16) :
    crc16From (b :: bytes) c = crc16From bytes (crc16Update c b) := by
  simp [crc16From]

theorem crc16From_eq_foldl (bytes : List Byte) (c : Word16) : crc16From bytes c = bytes.foldl crc16Update c := by
  induction bytes generalizing c with
  | nil => rfl
  | cons b bytes ih => simp [ih]

/-- A bit step is a shift and, when the high bit was 1, the polynomial. -/
theorem crcBit_eq (t : Word16) : crcBit t = (t <<< 1) ^^^ (if t.msb then Config.crcPoly else 0) := by
  cases h : t.msb <;> simp [crcBit, h]

theorem crcBits_add (m n : Nat) (t : Word16) : crcBits (m + n) t = crcBits n (crcBits m t) := by
  induction m generalizing t with
  | zero => simp [crcBits]
  | succ m ih => rw [Nat.succ_add]; exact ih (crcBit t)

/-- A bit step of a sum is the sum of the bit steps. -/
theorem crcBit_xor (t u : Word16) : crcBit (t ^^^ u) = crcBit t ^^^ crcBit u := by
  rw [crcBit_eq, crcBit_eq, crcBit_eq, BitVec.msb_xor, BitVec.shiftLeft_xor_distrib]
  have cancel : ∀ a b q : Word16, (a ^^^ q) ^^^ (b ^^^ q) = a ^^^ b := fun a b q => by
    rw [BitVec.xor_comm b q, BitVec.xor_assoc, ← BitVec.xor_assoc q, BitVec.xor_self, BitVec.zero_xor]
  cases t.msb <;> cases u.msb <;> simp [cancel] <;> ac_rfl

theorem crcBits_xor (n : Nat) (t u : Word16) : crcBits n (t ^^^ u) = crcBits n t ^^^ crcBits n u := by
  induction n generalizing t u with
  | zero => rfl
  | succ n ih => rw [crcBits, crcBit_xor, ih]; rfl

end Sys2Proof.Machine
end

