-- ==== Sys2Proof/Laws/Classifier.lean ====
section
/-! SUPPORT. What the classifier and the tail check read (20_memory.md R56), and when they accept. -/

namespace Sys2Proof.Machine

/-! ### The payload length a marker selects (41_classifier.md R101) -/

@[simp] theorem plen_soh : plen Config.soh = some 128 := by decide
@[simp] theorem plen_stx : plen Config.stx = some 1024 := by decide

theorem plen_none {m : Byte} : plen m = none ↔ m ≠ Config.soh ∧ m ≠ Config.stx := by
  unfold plen
  split_ifs <;> simp_all

theorem plen_some {m : Byte} {n : Nat} : plen m = some n ↔ m = Config.soh ∧ n = 128 ∨ m = Config.stx ∧ n = 1024 := by
  have hne : Config.soh ≠ Config.stx := by decide
  unfold plen
  split_ifs with h1 h2
  · subst h1; simp [hne, eq_comm, Config.p128]
  · subst h2; simp [hne.symm, eq_comm, Config.p1024]
  · simp [h1, h2]

/-! ### The two branches -/

theorem classify_short {s : State} (h : s.rxLen.toNat < Config.ctrlThreshold) : classify s = classifyShort s.marker := by
  simp [classify, h]

theorem classify_long {s : State} (h : Config.ctrlThreshold ≤ s.rxLen.toNat) : classify s = classifyLong s := by
  simp [classify, Nat.not_lt.mpr h]

theorem classifyLong_soh {s : State} (h : s.marker = Config.soh) :
    classifyLong s = if s.seqOk && s.crcOk 128 then .pkt128 else .invalid := by
  simp only [classifyLong, h, plen_soh, if_true]

theorem classifyLong_stx {s : State} (h : s.marker = Config.stx) :
    classifyLong s = if s.seqOk && s.crcOk 1024 then .pkt1024 else .invalid := by
  have hne : Config.stx ≠ Config.soh := by decide
  simp only [classifyLong, h, plen_stx, if_neg hne]

theorem classifyLong_other {s : State} (h1 : s.marker ≠ Config.soh) (h2 : s.marker ≠ Config.stx) :
    classifyLong s = .invalid := by
  simp only [classifyLong, plen_none.mpr ⟨h1, h2⟩]

theorem classifyShort_ne_packet (b : Byte) : classifyShort b ≠ .pkt128 ∧ classifyShort b ≠ .pkt1024 := by
  unfold classifyShort
  split_ifs <;> simp

/-- When a unit is a valid 128-byte packet (R106). -/
theorem classify_eq_pkt128 {s : State} :
    classify s = .pkt128 ↔ 128 ≤ s.rxLen.toNat ∧ s.marker = Config.soh ∧ s.seqOk = true ∧ s.crcOk 128 = true := by
  by_cases hl : s.rxLen.toNat < Config.ctrlThreshold
  · rw [classify_short hl]
    have := (classifyShort_ne_packet s.marker).1
    constructor
    · intro h; exact absurd h this
    · intro h; exact absurd hl (Nat.not_lt.mpr h.1)
  · rw [classify_long (Nat.not_lt.mp hl)]
    have hl' : 128 ≤ s.rxLen.toNat := Nat.not_lt.mp hl
    by_cases h1 : s.marker = Config.soh
    · rw [classifyLong_soh h1]; split_ifs <;> simp_all
    · by_cases h2 : s.marker = Config.stx
      · rw [classifyLong_stx h2]; split_ifs <;> simp [h1]
      · rw [classifyLong_other h1 h2]; simp [h1]

/-- When a unit is a valid 1024-byte packet (R106). -/
theorem classify_eq_pkt1024 {s : State} :
    classify s = .pkt1024 ↔ 128 ≤ s.rxLen.toNat ∧ s.marker = Config.stx ∧ s.seqOk = true ∧ s.crcOk 1024 = true := by
  by_cases hl : s.rxLen.toNat < Config.ctrlThreshold
  · rw [classify_short hl]
    have := (classifyShort_ne_packet s.marker).2
    constructor
    · intro h; exact absurd h this
    · intro h; exact absurd hl (Nat.not_lt.mpr h.1)
  · rw [classify_long (Nat.not_lt.mp hl)]
    have hl' : 128 ≤ s.rxLen.toNat := Nat.not_lt.mp hl
    by_cases h1 : s.marker = Config.stx
    · rw [classifyLong_stx h1]; split_ifs <;> simp_all
    · by_cases h2 : s.marker = Config.soh
      · rw [classifyLong_soh h2]; split_ifs <;> simp [h1]
      · rw [classifyLong_other h2 h1]; simp [h1]

/-- The classifier reads the buffer and the length and nothing else (41_classifier.md R109). -/
theorem classify_congr {s t : State} (hb : s.buf = t.buf) (hl : s.rxLen = t.rxLen) : classify s = classify t := by
  obtain ⟨⟨⟩⟩ := s
  obtain ⟨⟨⟩⟩ := t
  simp only at hb hl
  subst hb hl
  rfl

@[simp] theorem classify_consume (s : State) : classify s.consume = classify s := classify_congr rfl rfl
@[simp] theorem classify_endWait (s : State) : classify s.endWait = classify s := classify_congr rfl rfl

theorem tailOk_congr {s t : State} (hb : s.buf = t.buf) : tailOk s = tailOk t := by
  simp only [tailOk, State.marker, State.seqOk, State.seq, State.nseq, State.byte, hb]

@[simp] theorem tailOk_consume (s : State) : tailOk s.consume = tailOk s := tailOk_congr rfl

/-- `seq_ok` as a sum of numbers (41_classifier.md R102). -/
theorem seqOk_iff (s : State) : s.seqOk = true ↔ s.seq.toNat + s.nseq.toNat = 255 := by
  have h1 := s.seq.isLt
  have h2 := s.nseq.isLt
  rw [State.seqOk, beq_iff_eq, ← BitVec.toNat_inj, BitVec.toNat_add, BitVec.toNat_setWidth, BitVec.toNat_setWidth]
  simp only [BitVec.reduceToNat]
  omega

theorem crcOk_iff (s : State) (n : Nat) : s.crcOk n = true ↔ crc16 (s.payload n) = s.rxcrc n := by
  simp [State.crcOk]

end Sys2Proof.Machine
end

