-- ==== Sys2Proof/Laws/Decode.lean ====
section
/-! SUPPORT. The decoder's equations: which branch a unit takes (30_encoding.md R70), and R6's premise on the control bytes. -/

namespace Sys2Proof

/-- 00_scope.md R6, and more: the nine listed bytes are pairwise different. -/
theorem controlBytes_nodup :
    [Config.soh, Config.stx, Config.eot, Config.ack, Config.nak, Config.can, Config.crq, Config.abort1,
      Config.abort2].Nodup := by decide

theorem bufCap_eq : Config.bufCap = 1029 := rfl

theorem wfControl_iff {extra : List Byte} : wfControl extra = true ↔ 1 + extra.length < 128 := by
  simp [wfControl, Config.ctrlThreshold]

theorem wfPacket_iff {body : List Byte} : wfPacket body = true ↔ 128 ≤ 3 + body.length ∧ 3 + body.length ≤ 1029 := by
  simp [wfPacket, Config.ctrlThreshold, bufCap_eq, Config.hdrLen]

/-- R70 case 1. -/
theorem decode_short {b : Byte} {extra : List Byte} (h : 1 + extra.length < 128) :
    decode (.unit (b :: extra)) = decodeControl b extra := by
  have h1 : ¬ Config.bufCap < (b :: extra).length := by simp only [bufCap_eq, List.length_cons]; omega
  have h2 : (b :: extra).length < Config.ctrlThreshold := by simp only [Config.ctrlThreshold, List.length_cons]; omega
  simp only [decode, decodeUnit, h1, h2, if_false, if_true]

/-- R70 cases 2 to 4. -/
theorem decode_long {b seq nseq : Byte} {body : List Byte} (h : 128 ≤ 3 + body.length) (h' : 3 + body.length ≤ 1029) :
    decode (.unit (b :: seq :: nseq :: body)) = decodePacket b seq nseq body := by
  have h1 : ¬ Config.bufCap < (b :: seq :: nseq :: body).length := by
    simp only [bufCap_eq, List.length_cons]; omega
  have h2 : ¬ (b :: seq :: nseq :: body).length < Config.ctrlThreshold := by
    simp only [Config.ctrlThreshold, List.length_cons]; omega
  simp only [decode, decodeUnit, h1, h2, if_false]

theorem encode_of_decodeControl {b : Byte} {extra : List Byte} {i : Instr} (h : decodeControl b extra = .ok i) :
    encode i = .unit (b :: extra) := by
  unfold decodeControl at h
  split_ifs at h <;> simp only [Except.ok.injEq] at h <;> subst h <;> simp [encode, *]

theorem encode_of_decodePacket {b seq nseq : Byte} {body : List Byte} {i : Instr}
    (h : decodePacket b seq nseq body = .ok i) : encode i = .unit (b :: seq :: nseq :: body) := by
  unfold decodePacket at h
  split_ifs at h <;> simp only [Except.ok.injEq] at h <;> subst h <;> simp [encode, *]

/-- A unit that decodes to an instruction is that instruction's code. -/
theorem encode_of_decode_unit {bytes : List Byte} {i : Instr} (h : decode (.unit bytes) = .ok i) :
    encode i = .unit bytes := by
  simp only [decode, decodeUnit] at h
  split_ifs at h
  · split at h
    · cases h
    · exact encode_of_decodeControl h
  · split at h
    · exact encode_of_decodePacket h
    · cases h
    · cases h

end Sys2Proof
end

