-- ==== Sys2Proof/Laws/Header.lean ====
section
/-! SUPPORT. The header extractor: the name it keeps, the decimal fold, and what one extraction writes. -/

namespace Sys2Proof.Machine

theorem headerName_length_le (pay : List Byte) : (headerName pay).length ≤ Config.nameMax :=
  List.length_take_le _ _

theorem headerName_no_nul {pay : List Byte} {b : Byte} (h : b ∈ headerName pay) : b ≠ Config.nul := by
  have := List.mem_takeWhile_imp (List.mem_of_mem_take h)
  simpa using this

theorem nameCells_getElem (ctr : Nat) (nm : List Byte) {i : Nat} (hi : i < nm.length) (hc : i < 63) :
    (nameCells ctr nm)[i] = nm[i] := by
  simp [nameCells, hi]

@[simp] theorem decimalFrom_nil (v : Word32) : decimalFrom [] v = v := rfl

@[simp] theorem decimalFrom_cons (b : Byte) (digits : List Byte) (v : Word32) :
    decimalFrom (b :: digits) v = decimalFrom digits (v * 10 + (b - Config.digit0).setWidth 32) := by
  simp [decimalFrom]

theorem isDigit_iff {b : Byte} : isDigit b = true ↔ 0x30 ≤ b.toNat ∧ b.toNat ≤ 0x39 := by
  simp [isDigit, Config.digit0, Config.digit9, BitVec.le_def]

/-- One extraction (42_header_extractor.md R120, R123, R124). -/
theorem extractHeader_eq (n : Nat) (s : State) :
    extractHeader n s =
      (s.env.hdrRet, (s.setHeader (headerName (s.payload n)) (headerSize (s.payload n))).call
        (.acceptHeader (headerName (s.payload n)) (headerSize (s.payload n)))) := rfl

end Sys2Proof.Machine
end

