-- ==== Sys2Proof/Laws/PerInstr.lean ====
section
/-! SUPPORT. Facts about every instruction as syntax, one lemma per constructor. -/

namespace Sys2Proof.Laws.EncodingFitsItsRow

/-- A well-formed instruction's code is its row's (30_encoding.md R84): a port code up to 8, or a non-empty unit that fits in
the buffer and whose length and first byte fit the row of the instruction's mnemonic. -/
def Statement (i : Instr) : Prop :=
  i.wf = true →
    match encode i with
    | .port w => w.op.toNat ≤ 8
    | .unit bytes => bytes.length ≤ Config.bufCap ∧
        ∃ r ∈ unitRows, r.mnemonic = i.mnemonic ∧ bytes.head?.any (r.fits bytes.length) = true

/-- The common part of the seven control rows. -/
theorem control {i : Instr} {b : Byte} {extra : List Byte} (he : encode i = .unit (b :: extra)) (hw : i.wf = wfControl extra)
    (r : UnitRow) (hr : r ∈ unitRows) (hm : r.mnemonic = i.mnemonic) (hs : r.short = true)
    (hb : (b &&& r.mask == r.value) = true) : Statement i := by
  intro h
  rw [hw, wfControl_iff] at h
  have hlen : (b :: extra).length < Config.ctrlThreshold := by simp only [Config.ctrlThreshold, List.length_cons]; omega
  rw [he]
  refine ⟨?_, r, hr, hm, ?_⟩
  · simp only [bufCap_eq, List.length_cons]; omega
  · simp only [List.head?_cons, Option.any_some, UnitRow.fits, hs, hlen, decide_true, BEq.rfl, Bool.true_and, hb]

/-- The common part of the two packet rows. -/
theorem packet {i : Instr} {b seq nseq : Byte} {body : List Byte} (he : encode i = .unit (b :: seq :: nseq :: body))
    (hw : i.wf = wfPacket body) (r : UnitRow) (hr : r ∈ unitRows) (hm : r.mnemonic = i.mnemonic) (hs : r.short = false)
    (hb : (b &&& r.mask == r.value) = true) : Statement i := by
  intro h
  rw [hw, wfPacket_iff] at h
  have hlen : ¬ (b :: seq :: nseq :: body).length < Config.ctrlThreshold := by
    simp only [Config.ctrlThreshold, List.length_cons]; omega
  rw [he]
  refine ⟨?_, r, hr, hm, ?_⟩
  · simp only [bufCap_eq, List.length_cons]; omega
  · simp only [List.head?_cons, Option.any_some, UnitRow.fits, hs, hlen, decide_false, BEq.rfl, Bool.true_and, hb]

theorem nop : Statement .nop := fun _ => Nat.le_of_ble_eq_true rfl
theorem crcClr : Statement .crcClr := fun _ => Nat.le_of_ble_eq_true rfl
theorem crcUpd (din : Byte) : Statement (.crcUpd din) := fun _ => Nat.le_of_ble_eq_true rfl
theorem crcBlk (off n : Word11) : Statement (.crcBlk off n) := fun _ => Nat.le_of_ble_eq_true rfl
theorem frame : Statement .frame := fun _ => Nat.le_of_ble_eq_true rfl
theorem classify : Statement .classify := fun _ => Nat.le_of_ble_eq_true rfl
theorem tailchk : Statement .tailchk := fun _ => Nat.le_of_ble_eq_true rfl
theorem hdrx : Statement .hdrx := fun _ => Nat.le_of_ble_eq_true rfl
theorem poll : Statement .poll := fun _ => Nat.le_of_ble_eq_true rfl
theorem eot (extra : List Byte) : Statement (.eot extra) :=
  control rfl rfl ⟨"EOT", true, 0x04, 0xFF⟩ (by decide) rfl rfl (by decide)
theorem ack (extra : List Byte) : Statement (.ack extra) :=
  control rfl rfl ⟨"ACK", true, 0x06, 0xFF⟩ (by decide) rfl rfl (by decide)
theorem nak (extra : List Byte) : Statement (.nak extra) :=
  control rfl rfl ⟨"NAK", true, 0x15, 0xFF⟩ (by decide) rfl rfl (by decide)
theorem can (extra : List Byte) : Statement (.can extra) :=
  control rfl rfl ⟨"CAN", true, 0x18, 0xFF⟩ (by decide) rfl rfl (by decide)
theorem crq (extra : List Byte) : Statement (.crq extra) :=
  control rfl rfl ⟨"CRQ", true, 0x43, 0xFF⟩ (by decide) rfl rfl (by decide)
theorem abort1 (extra : List Byte) : Statement (.abort1 extra) :=
  control rfl rfl ⟨"ABORT1", true, 0x41, 0xFF⟩ (by decide) rfl rfl (by decide)
theorem abort2 (extra : List Byte) : Statement (.abort2 extra) :=
  control rfl rfl ⟨"ABORT2", true, 0x61, 0xFF⟩ (by decide) rfl rfl (by decide)
theorem soh (seq nseq : Byte) (body : List Byte) : Statement (.soh seq nseq body) :=
  packet rfl rfl ⟨"SOH", false, 0x01, 0xFF⟩ (by decide) rfl rfl (by decide)
theorem stx (seq nseq : Byte) (body : List Byte) : Statement (.stx seq nseq body) :=
  packet rfl rfl ⟨"STX", false, 0x02, 0xFF⟩ (by decide) rfl rfl (by decide)

end Sys2Proof.Laws.EncodingFitsItsRow
end

