-- ==== Sys2Proof/Laws/Sequencer.lean ====
section
/-! SUPPORT. What one POLL can do, once and for all (43_receive_sequencer.md R131 to R137): every claim about POLL is a case
analysis of `PollStep`. -/

namespace Sys2Proof.Machine

/-- The outcomes of a POLL. In `abort`, `u` is `s` with the unit consumed, the wait over, or both. -/
inductive PollStep (p : Config.Params) (s : State) : State → Prop where
  | quiet (hs : s.sstate = .idle) (he : s.sessionEn = false) : PollStep p s s
  | start (hs : s.sstate = .idle) (he : s.sessionEn = true) : PollStep p s (s.goto .handshaking)
  | request (hs : s.sstate = .handshaking) (hw : s.waiting = none) :
      PollStep p s ((s.transmit [Config.crq]).beginWait p.handshakeDelayMs)
  | skip (hs : s.sstate = .handshaking) (hw : s.waiting.isSome = true)
      (hr : s.env.waitRet = 0 ∧ p.waitZero = .skip ∨ s.env.waitRet ≠ 0 ∧ s.dataReady = false) : PollStep p s s.endWait
  | waitAbort (hs : s.sstate = .handshaking) (hw : s.waiting.isSome = true) (hr : s.env.waitRet = 0)
      (hz : p.waitZero = .abort) : PollStep p s (abort p s.endWait)
  | header (hs : s.sstate = .handshaking) (hw : s.waiting.isSome = true) (hr : s.env.waitRet ≠ 0)
      (hd : s.dataReady = true) (hc : classify s = .pkt128) :
      PollStep p s (((((s.endWait.consume.setHeader (headerName (s.payload Config.p128)) (headerSize (s.payload Config.p128))).call
        (.acceptHeader (headerName (s.payload Config.p128)) (headerSize (s.payload Config.p128)))).openMeta).transmit
        [Config.ack, Config.crq]).goto .receiving)
  | noHeader (hs : s.sstate = .handshaking) (hw : s.waiting.isSome = true) (hr : s.env.waitRet ≠ 0)
      (hd : s.dataReady = true) (hc : classify s ≠ .pkt128) : PollStep p s (abort p s.endWait.consume)
  | noUnit (hs : s.sstate.inSession = true) (hd : s.dataReady = false) : PollStep p s s
  | packet (n : Nat) (hs : s.sstate = .receiving) (hd : s.dataReady = true)
      (hc : classify s = .pkt128 ∧ n = Config.p128 ∨ classify s = .pkt1024 ∧ n = Config.p1024) :
      PollStep p s ((s.consume.call (.acceptPayload Config.hdrLen n (s.bytes Config.hdrLen n))).transmit [Config.ack])
  | firstEnd (hs : s.sstate = .receiving) (hd : s.dataReady = true) (hc : classify s = .ctrl .eot) :
      PollStep p s ((s.consume.transmit [Config.nak]).goto .awaitEot2)
  | noPacket (hs : s.sstate = .receiving) (hd : s.dataReady = true)
      (hc : classify s ≠ .pkt128 ∧ classify s ≠ .pkt1024 ∧ classify s ≠ .ctrl .eot) : PollStep p s (abort p s.consume)
  | secondEnd (hs : s.sstate = .awaitEot2) (hd : s.dataReady = true) (hc : classify s = .ctrl .eot) :
      PollStep p s ((s.consume.transmit [Config.ack, Config.crq]).goto .awaitTail)
  | noSecondEnd (hs : s.sstate = .awaitEot2) (hd : s.dataReady = true) (hc : classify s ≠ .ctrl .eot) :
      PollStep p s (abort p s.consume)
  | finish (hs : s.sstate = .awaitTail) (hd : s.dataReady = true) (hc : tailOk s = true) :
      PollStep p s (((s.consume.transmit [Config.ack]).call .acceptEnd).closeSession)
  | noTail (hs : s.sstate = .awaitTail) (hd : s.dataReady = true) (hc : tailOk s = false) :
      PollStep p s (abort p s.consume)

/-- Every POLL is one of the outcomes. -/
theorem poll_step (p : Config.Params) (s : State) : PollStep p s (poll p s) := by
  cases hs : s.sstate with
  | idle =>
    cases he : s.sessionEn
    · simpa [poll, hs, pollIdle, he] using PollStep.quiet hs he
    · simpa [poll, hs, pollIdle, he] using PollStep.start hs he
  | handshaking =>
    cases hw : s.waiting with
    | none => simpa [poll, hs, hw, handshakeA] using PollStep.request hs hw
    | some ms =>
      have hw' : s.waiting.isSome = true := by simp [hw]
      by_cases hr : s.env.waitRet = 0
      · cases hz : p.waitZero
        · simpa [poll, hs, hw, handshakeB, hr, hz] using PollStep.skip hs hw' (.inl ⟨hr, hz⟩)
        · simpa [poll, hs, hw, handshakeB, hr, hz] using PollStep.waitAbort hs hw' hr hz
      · cases hd : s.dataReady
        · simpa [poll, hs, hw, handshakeB, hr, hd] using PollStep.skip hs hw' (.inr ⟨hr, hd⟩)
        · by_cases hc : classify s = .pkt128
          · simpa [poll, hs, hw, handshakeB, hr, hd, handshakeUnit, hc, extractHeader_eq] using PollStep.header (p := p) hs hw' hr hd hc
          · have := PollStep.noHeader (p := p) hs hw' hr hd hc
            cases hv : classify s <;> simp_all [poll, handshakeB, handshakeUnit]
  | receiving =>
    cases hd : s.dataReady
    · simpa [poll, hs, onUnit, hd] using PollStep.noUnit (p := p) (by simp [hs, SState.inSession]) hd
    · cases hv : classify s with
      | pkt128 =>
        simpa [poll, hs, onUnit, hd, receivingUnit, hv, receivePacket]
          using PollStep.packet (p := p) Config.p128 hs hd (.inl ⟨hv, rfl⟩)
      | pkt1024 =>
        simpa [poll, hs, onUnit, hd, receivingUnit, hv, receivePacket]
          using PollStep.packet (p := p) Config.p1024 hs hd (.inr ⟨hv, rfl⟩)
      | invalid =>
        simpa [poll, hs, onUnit, hd, receivingUnit, hv] using PollStep.noPacket (p := p) hs hd (by simp [hv])
      | ctrl c =>
        cases c with
        | eot => simpa [poll, hs, onUnit, hd, receivingUnit, hv] using PollStep.firstEnd (p := p) hs hd hv
        | ack | nak | can | crq =>
          simpa [poll, hs, onUnit, hd, receivingUnit, hv] using PollStep.noPacket (p := p) hs hd (by simp [hv])
  | awaitEot2 =>
    cases hd : s.dataReady
    · simpa [poll, hs, onUnit, hd] using PollStep.noUnit (p := p) (by simp [hs, SState.inSession]) hd
    · cases hv : classify s with
      | ctrl c =>
        cases c with
        | eot => simpa [poll, hs, onUnit, hd, awaitEot2Unit, hv] using PollStep.secondEnd (p := p) hs hd hv
        | ack | nak | can | crq =>
          simpa [poll, hs, onUnit, hd, awaitEot2Unit, hv] using PollStep.noSecondEnd (p := p) hs hd (by simp [hv])
      | pkt128 | pkt1024 | invalid =>
        simpa [poll, hs, onUnit, hd, awaitEot2Unit, hv] using PollStep.noSecondEnd (p := p) hs hd (by simp [hv])
  | awaitTail =>
    cases hd : s.dataReady
    · simpa [poll, hs, onUnit, hd] using PollStep.noUnit (p := p) (by simp [hs, SState.inSession]) hd
    · cases ht : tailOk s
      · simpa [poll, hs, onUnit, hd, awaitTailUnit, ht] using PollStep.noTail (p := p) hs hd ht
      · simpa [poll, hs, onUnit, hd, awaitTailUnit, ht] using PollStep.finish (p := p) hs hd ht

end Sys2Proof.Machine
end

