-- ==== Sys2Proof/Laws/Step.lean ====
section
/-! SUPPORT. What exec does for each shape of instruction, and what a step does for each stimulus. -/

namespace Sys2Proof.Machine

/-- A unit instruction is the delivery of the bytes it encodes to. -/
theorem exec_unit {i : Instr} {bytes : List Byte} (h : encode i = .unit bytes) (s : State) :
    exec i s = deliver bytes s := by
  cases i <;> simp only [encode, portOf, Code.unit.injEq, reduceCtorEq] at h <;> subst h <;> rfl

/-- An operation of the port that answers a next state is one of these. -/
theorem exec_port_cases {i : Instr} {w : PortWord} {s t : State} (h : encode i = .port w) (ht : exec i s = .next t) :
    t = s ∨ t = poll Config.params s ∨ (∃ r, t = s.emit r) ∨ (∃ c r, t = (s.setCrc c).emit r) ∨
      ∃ n r, plen s.marker = some n ∧ t = (extractHeader n s).2.emit r := by
  cases i with
  | nop => cases ht; exact .inl rfl
  | poll => cases ht; exact .inr (.inl rfl)
  | frame | classify | tailchk => cases ht; exact .inr (.inr (.inl ⟨_, rfl⟩))
  | crcClr | crcUpd din => cases ht; exact .inr (.inr (.inr (.inl ⟨_, _, rfl⟩)))
  | crcBlk off n =>
    simp only [exec, execCrcBlk] at ht
    split at ht
    · cases ht; exact .inr (.inr (.inr (.inl ⟨_, _, rfl⟩)))
    · cases ht
  | hdrx =>
    simp only [exec, execHdrx] at ht
    split at ht
    · cases ht
    · next n hn => cases ht; exact .inr (.inr (.inr (.inr ⟨n, _, hn, rfl⟩)))
  | eot _ | ack _ | nak _ | can _ | crq _ | abort1 _ | abort2 _ | soh _ _ _ | stx _ _ _ =>
    simp [encode] at h

theorem step_nil {s : State} (h : s.input = []) : step s = .next s := by
  simp [step, h]

theorem step_cons {s : State} {x : Stimulus} {xs : List Stimulus} (h : s.input = x :: xs) :
    step s = stimulate x (s.withInput xs) := by
  simp [step, h]

/-- Row of the table or not, an arriving unit is delivered (30_encoding.md R76). -/
theorem arrive_eq (bytes : List Byte) (s : State) : arrive bytes s = deliver bytes s := by
  unfold arrive
  split
  · next i h => exact exec_unit (encode_of_decode_unit h) s
  · rfl

/-- What a step does for each stimulus: the inversion all step claims start from. -/
theorem stimulate_next {x : Stimulus} {s t : State} (h : stimulate x s = .next t) :
    (∃ w env i, x = .op w env ∧ s.waiting = none ∧ decode (.port w) = .ok i ∧ exec i (s.withEnv env) = .next t) ∨
    (∃ env, x = .waitReturn env ∧ s.waiting.isSome = true ∧ t = poll Config.params (s.withEnv env)) ∨
    (∃ bytes, x = .rx bytes ∧ s.dataReady = false ∧ bytes.length ≤ Config.bufCap ∧ t = s.receive bytes) ∨
    (x = .enable ∧ t = s.setSessionEn true) ∨ (x = .disable ∧ t = s.setSessionEn false) ∨
    (x = .reset ∧ t = s.resetNow) := by
  cases x with
  | op w env =>
    simp only [stimulate, issue] at h
    split at h
    · cases h
    · next hw =>
      split at h
      · next i hi => exact .inl ⟨w, env, i, rfl, by simpa using hw, hi, h⟩
      · cases h
  | waitReturn env =>
    simp only [stimulate, resume] at h
    split at h
    · next hw => cases h; exact .inr (.inl ⟨env, rfl, by simpa using hw, rfl⟩)
    · cases h
  | rx bytes =>
    rw [stimulate, arrive_eq, deliver_next_iff] at h
    exact .inr (.inr (.inl ⟨bytes, rfl, h⟩))
  | enable => cases h; simp
  | disable => cases h; simp
  | reset => cases h; simp

end Sys2Proof.Machine
end

