-- ==== Sys2Proof/Tests/Slice0.lean ====
section
/-! SUPPORT. Tests. The expected results are those of 95_test_vectors.md (parts 1 to 3) and the words of 30_encoding.md, never
the model's own; and one witness for the hypotheses of each statement that has any, clause by clause. -/

namespace Sys2Proof.Tests

open Sys2Proof.Machine

-- One theorem at a time: a thread for each would exhaust the memory limit.
set_option Elab.async false

/-! ## Frames of 95_test_vectors.md 2.2 -/

/-- H: "a.bin", NUL, "100", zero padding. -/
def payH : List Byte := [0x61, 0x2E, 0x62, 0x69, 0x6E, 0x00, 0x31, 0x30, 0x30] ++ List.replicate 119 0

/-- F_HDR. -/
def fHdr : List Byte := [0x01, 0x00, 0xFF] ++ payH ++ [0x94, 0xE9]

/-- F_D1 with a trailer of one's choice; `0xE8 0x0A` is right. -/
def fD1 (hi lo : Byte) : List Byte := [0x01, 0x01, 0xFE] ++ (List.range 128).map (BitVec.ofNat 8) ++ [hi, lo]

/-- F_TAIL with a trailer of one's choice. -/
def fTail (hi lo : Byte) : List Byte := [0x01, 0x00, 0xFF] ++ List.replicate 128 0 ++ [hi, lo]

/-- F_BIG. -/
def fBig : List Byte := [0x02, 0x01, 0xFE] ++ List.replicate 1024 0x1A ++ [0xFC, 0x96]

/-- A 1024-byte packet of zeros; their CRC is 0x0000 (table 2.1). -/
def fZero : List Byte := [0x02, 0x01, 0xFE] ++ List.replicate 1024 0 ++ [0x00, 0x00]

/-- After reset, with a unit in the buffer. -/
def got (bytes : List Byte) : State := State.reset.receive bytes

/-- In a session state, with a unit waiting. -/
def session (q : SState) (bytes : List Byte) : State :=
  { got bytes with sstate := q, sessionEn := true, metaValid := q.inSession }

/-- In phase B of a Handshaking POLL, with a unit waiting. -/
def waited (bytes : List Byte) : State := { session .handshaking bytes with waiting := some 0 }

/-- After reset, with one stimulus to come. -/
def fed (x : Stimulus) : State := State.reset.withInput [x]

/-- The port word of an operation without operands. -/
def bare (op : BitVec 4) : PortWord := ⟨op, 0, 0, 0⟩

/-- The result a next state ends its trace with. -/
def shows (o : Host.Outcome State Fault Refusal) (r : Result) : Bool :=
  match o with
  | .next t => t.results == [r]
  | .fault _ | .refused _ => false

/-- What one POLL with R5's defaults does: `TX`, the number of calls, the state, `SESSION_EN`, `DATA_READY`. -/
def polled (s : State) : List Byte × Nat × SState × Bool × Bool :=
  let t := poll Config.defaultParams s
  (t.tx, t.cb.length, t.sstate, t.sessionEn, t.dataReady)

/-! ## WellFormed refuses -/

theorem test_wf_control_of_128_bytes : (Instr.eot (List.replicate 127 0)).wf = false := by decide +kernel
theorem test_wf_short_soh : (Instr.soh 0 0xFF (List.replicate 124 0)).wf = false := by decide +kernel
theorem test_wf_long_soh : (Instr.soh 0 0xFF (List.replicate 1027 0)).wf = false := by decide +kernel
theorem test_wf_short_stx : (Instr.stx 0 0xFF (List.replicate 124 0)).wf = false := by decide +kernel
theorem test_wf_long_stx : (Instr.stx 0 0xFF (List.replicate 1027 0)).wf = false := by decide +kernel

/-! ## Every constructor from a word of 30_encoding.md (R79, R75) -/

theorem test_decode_nop : decode (.port ⟨0b0000#4, 0, 0, 0⟩) = .ok .nop := by decide
theorem test_decode_crcClr : decode (.port ⟨0b0001#4, 0, 0, 0⟩) = .ok .crcClr := by decide
theorem test_decode_crcUpd : decode (.port ⟨0b0010#4, 0b01000001#8, 0, 0⟩) = .ok (.crcUpd 0x41) := by decide
theorem test_decode_crcBlk :
    decode (.port ⟨0b0011#4, 0, 0b00000000011#11, 0b00010000010#11⟩) = .ok (.crcBlk 3 130) := by decide
theorem test_decode_frame : decode (.port ⟨0b0100#4, 0, 0, 0⟩) = .ok .frame := by decide
theorem test_decode_classify : decode (.port ⟨0b0101#4, 0, 0, 0⟩) = .ok .classify := by decide
theorem test_decode_tailchk : decode (.port ⟨0b0110#4, 0, 0, 0⟩) = .ok .tailchk := by decide
theorem test_decode_hdrx : decode (.port ⟨0b0111#4, 0, 0, 0⟩) = .ok .hdrx := by decide
/-- The operands an operation does not name are ignored. -/
theorem test_decode_poll : decode (.port ⟨0b1000#4, 0xFF, 0x7FF, 0x7FF⟩) = .ok .poll := by decide
theorem test_decode_eot : decode (.unit [0b00000100#8]) = .ok (.eot []) := by decide
theorem test_decode_ack : decode (.unit [0b00000110#8]) = .ok (.ack []) := by decide
theorem test_decode_nak : decode (.unit [0b00010101#8, 7]) = .ok (.nak [7]) := by decide
theorem test_decode_can : decode (.unit [0b00011000#8]) = .ok (.can []) := by decide
theorem test_decode_crq : decode (.unit [0b01000011#8]) = .ok (.crq []) := by decide
theorem test_decode_abort1 : decode (.unit [0b01000001#8]) = .ok (.abort1 []) := by decide
theorem test_decode_abort2 : decode (.unit [0b01100001#8]) = .ok (.abort2 []) := by decide
theorem test_decode_soh :
    decode (.unit (fD1 0xE8 0x0A)) =
      .ok (.soh 1 0xFE ((List.range 128).map (BitVec.ofNat 8) ++ [0xE8, 0x0A])) := by decide +kernel
theorem test_decode_stx :
    decode (.unit fBig) = .ok (.stx 1 0xFE (List.replicate 1024 0x1A ++ [0xFC, 0x96])) := by decide +kernel
/-- A marker at a short length, and a control byte at a long one, are no row's (R76). -/
theorem test_decode_short_marker : decode (.unit [0x01]) = .error (.unlistedControl 0x01) := by decide
theorem test_decode_long_control :
    decode (.unit (0x06 :: List.replicate 127 0)) = .error (.notAMarker 0x06) := by decide +kernel
theorem test_decode_reserved : decode (.port (bare 9)) = .error (.reservedOp 9) := by decide
theorem test_table_word_port : decodeTableWord 8 0x8 = some .poll := by decide
theorem test_table_word_unit : decodeTableWord 8 0x15 = some (.nak []) := by decide

/-! ## Vectors of 95_test_vectors.md -/

theorem test_sstate_codes :
    [SState.idle, .handshaking, .receiving, .awaitEot2, .awaitTail].map SState.code = [0, 1, 2, 3, 4] := by decide

theorem test_nop : execNop (got fHdr) = .next (got fHdr) := rfl

/-- Program P5, step 4. -/
theorem test_crcClr : shows (execCrcClr { got fHdr with crc := 0x567B }) (.crc 0x0000) = true := by decide +kernel

/-- Table 2.1, single steps. -/
theorem test_crcUpd : shows (execCrcUpd 0x42 { State.reset with crc := 0x58E5 }) (.crc 0x567B) = true := by decide +kernel
theorem test_crcUpd_high : shows (execCrcUpd 0x56 { State.reset with crc := 0x1234 }) (.crc 0x3C40) = true := by
  decide +kernel

/-- Table 2.1, whole sequences. -/
theorem test_crc16_check :
    crc16 [0x31, 0x32, 0x33, 0x34, 0x35, 0x36, 0x37, 0x38, 0x39] = 0x31C3 ∧ crc16 [0xFF, 0xFF] = 0x1D0F ∧
      crc16 [] = 0x0000 ∧ crc16 (List.replicate 128 0x1A) = 0xF8B0 := by decide +kernel

/-- CRC.BLK 3 128 does not start from the old register. -/
theorem test_crcBlk : shows (execCrcBlk 3 128 { got fHdr with crc := 0xFFFF }) (.crc 0x94E9) = true := by decide +kernel
theorem test_crcBlk_refused : execCrcBlk 1000 30 State.reset = .refused (.blockOutsideBuffer 1000 30) := rfl

theorem test_frame : shows (execFrame (got fHdr)) (.frame 0x01 0x00 0xFF 128 0x94E9) = true := by decide +kernel
theorem test_frame_no_marker :
    shows (execFrame (got [0x04, 0xAB, 0xCD])) (.frame 0x04 0xAB 0xCD 0 0x0000) = true := by decide +kernel

/-- Table 2.3, rows 14, 15, 17, 18 and 24: each must be invalid. -/
theorem test_classify_rejects :
    classify (got ([0x01, 0x00, 0xFF] ++ payH ++ [0x94, 0xE8])) = .invalid ∧
    classify (got ([0x01, 0x00, 0xFF] ++ payH ++ [0x95, 0xE9])) = .invalid ∧
    classify (got ([0x01, 0x00, 0xFE] ++ payH ++ [0x94, 0xE9])) = .invalid ∧
    classify ((got (fD1 0xE8 0x0A)).receive (fHdr.take 128)) = .invalid := by decide +kernel
/-- Rows 4, 7, 11, 12, 13, 21 and 23. -/
theorem test_classify_results :
    (classify (got [0x18])).cls = 0x018 ∧ (classify (got [0x41])).cls = 0x100 ∧
    (classify (got (0x06 :: List.replicate 126 0xAA))).cls = 0x006 ∧
    (classify (got (0x06 :: List.replicate 127 0xAA))).cls = 0x100 ∧ (classify (got fHdr)).cls = 0x001 ∧
    (classify (got fBig)).cls = 0x002 ∧ (classify ((got fHdr).receive (fHdr.take 128))).cls = 0x001 := by decide +kernel

/-- The tail check passes a wrong trailer and any number, and not the long marker or a false pair. -/
theorem test_tailchk :
    shows (execTailchk (got (fTail 0x12 0x34))) (.tail true) = true ∧ tailOk (got [0x01, 0x05, 0xFA]) = true ∧
    tailOk (got [0x02, 0x00, 0xFF]) = false ∧ tailOk (got [0x01, 0x00, 0x00]) = false := by decide +kernel

/-- Table 2.4: the size behind the true NUL at 70, past the cut of the name. -/
theorem test_hdrx_long_name :
    let pay := List.replicate 70 0x41 ++ [0x00, 0x20, 0x39] ++ List.replicate 55 0
    headerName pay = List.replicate 63 0x41 ∧ headerSize pay = 9 := by decide +kernel
/-- Table 2.4: the wrap of 4294967297, and a tab is no space. -/
theorem test_hdrx_sizes :
    headerSize ([0x66, 0x00] ++ [0x34, 0x32, 0x39, 0x34, 0x39, 0x36, 0x37, 0x32, 0x39, 0x37] ++ [0x00]) = 1 ∧
      headerSize [0x66, 0x00, 0x09, 0x35, 0x00] = 0 := by decide +kernel

/-- Table 2.5, rows 4, 5 and 6. -/
theorem test_poll_handshaking_waits :
    polled { session .handshaking [] with dataReady := false } = ([0x43], 0, .handshaking, true, false) ∧
    polled { waited fHdr with env := ⟨0, true, true, true⟩ } = ([], 0, .handshaking, true, true) := by decide +kernel
/-- Rows 7 and 11 (the first checksum-request of a Handshaking POLL is phase A's), 14 and 18. -/
theorem test_poll_units :
    polled (waited fHdr) = ([0x06, 0x43], 1, .receiving, true, false) ∧
    polled (waited [0x04]) = ([0x18], 0, .idle, false, false) ∧
    polled (session .receiving (fD1 0xE8 0x0A)) = ([0x06], 1, .receiving, true, false) ∧
    polled (session .receiving [0x04]) = ([0x15], 0, .awaitEot2, true, false) := by decide +kernel
/-- Rows 22, 23, 26 and 27. -/
theorem test_poll_end :
    polled (session .awaitEot2 [0x04]) = ([0x06, 0x43], 0, .awaitTail, true, false) ∧
    polled (session .awaitEot2 (fD1 0xE8 0x0A)) = ([0x18], 0, .idle, false, false) ∧
    polled (session .awaitTail (fTail 0x12 0x34)) = ([0x06], 1, .idle, false, false) ∧
    polled (session .awaitTail fBig) = ([0x18], 0, .idle, false, false) := by decide +kernel

/-- Source S4: the one call of the header, with its arguments. -/
theorem test_poll_header_call :
    (poll Config.defaultParams (waited fHdr)).cb = [.acceptHeader [0x61, 0x2E, 0x62, 0x69, 0x6E] 100] := by
  decide +kernel

/-- A delivery leaves the bytes from its length on (R57), and a zero byte overwrites too. -/
theorem test_delivery :
    ((got fHdr).receive [0x04, 0x00]).byte 1 = 0x00 ∧ ((got fHdr).receive [0x00]).byte 0 = 0x00 ∧
      ((got fHdr).receive [0x04, 0x00]).byte 2 = 0xFF := by decide +kernel

/-! ## Witnesses: the hypotheses of the statements can be met -/

theorem witness_DecodeOfEncodeIsTheInstruction :
    (Instr.eot (List.replicate 126 0)).wf = true ∧ (Instr.soh 1 2 (List.replicate 125 0)).wf = true ∧
      (Instr.stx 1 2 (List.replicate 1026 0)).wf = true := by decide +kernel

theorem witness_EncodeOfDecodeIsTheCode :
    decode (.unit [0x61, 0x00]) = .ok (.abort2 [0x00]) ∧ decode (.port ⟨2, 5, 6, 7⟩) = .ok (.crcUpd 5) := by decide

theorem witness_UnitDecodingFollowsTheTable :
    ((0x04 : Byte) :: []).length ≤ Config.bufCap ∧ ((0x02 : Byte) :: List.replicate 1028 0).length ≤ Config.bufCap := by
  decide +kernel

theorem witness_ReservedCodesAreRefused :
    9 ≤ (bare 9).op.toNat ∧ 9 ≤ (bare 15).op.toNat ∧ (fed (.op (bare 9) Env.default)).waiting = none ∧
      (fed (.op (bare 9) Env.default)).input = .op (bare 9) Env.default :: [] := by decide +kernel

theorem witness_StepRunsTheDecodedInstruction :
    (fed (.op (bare 5) Env.default)).input = .op (bare 5) Env.default :: [] ∧
    (fed (.op (bare 5) Env.default)).waiting = none ∧ decode (.port (bare 5)) = .ok .classify ∧
    (fed (.rx [0x04])).input = .rx [0x04] :: [] ∧ decode (.unit [0x04]) = .ok (.eot []) := by decide +kernel

theorem witness_StepOfTheOtherStimuli :
    State.reset.input = [] ∧ (fed .enable).input = .enable :: [] ∧ (fed .disable).input = .disable :: [] ∧
    ((waited fHdr).withInput [.waitReturn Env.default]).input = .waitReturn Env.default :: [] ∧
    ((waited fHdr).withInput [.waitReturn Env.default]).waiting.isSome = true ∧
    (fed (.waitReturn Env.default)).waiting = none ∧
    ((waited fHdr).withInput [.op (bare 0) Env.default]).waiting.isSome = true ∧
    decode (.unit []) = .error .emptyUnit ∧
    decode (.unit (List.replicate 1029 0)) = .error (.notAMarker 0) ∧ (fed (.rx [])).dataReady = false ∧
    (List.replicate 1029 (0 : Byte)).length ≤ Config.bufCap := by decide +kernel

theorem witness_ResetAtAnyTimeMakesPollQuiet :
    ((waited fHdr).withInput [.reset]).input = .reset :: [] := rfl

theorem witness_CrcBlkSumsTheRegion :
    (1029#11).toNat + (0#11).toNat ≤ 1029 ∧ (3#11).toNat + (1026#11).toNat ≤ 1029 ∧
      1029 < (1000#11).toNat + (30#11).toNat := by decide

theorem witness_FrameReturnsTheFields :
    (got fHdr).byte 0 = Config.soh ∧ (got fBig).byte 0 = Config.stx ∧ (got [0x04]).byte 0 ≠ Config.soh ∧
      (got [0x04]).byte 0 ≠ Config.stx := by decide +kernel

theorem witness_ClassifyShortUnits : (got (0x04 :: List.replicate 126 0)).rxLen.toNat < 128 := by decide +kernel

theorem witness_ClassifyLongUnits_accepted :
    128 ≤ (got fHdr).rxLen.toNat ∧ (got fHdr).byte 0 = Config.soh ∧ (got fHdr).packetOk 128 := by
  unfold State.packetOk
  decide +kernel

theorem witness_ClassifyLongUnits_accepted_long :
    128 ≤ (got fZero).rxLen.toNat ∧ (got fZero).byte 0 = Config.stx ∧ (got fZero).packetOk 1024 := by
  unfold State.packetOk
  decide +kernel

theorem witness_ClassifyLongUnits_rejected :
    128 ≤ (got (0x04 :: List.replicate 127 0)).rxLen.toNat ∧
      (got (0x04 :: List.replicate 127 0)).byte 0 ≠ Config.soh ∧
      (got (0x04 :: List.replicate 127 0)).byte 0 ≠ Config.stx := by decide +kernel

/-- Two buffers that differ at 133, behind the frame. -/
theorem witness_ClassifyReadsOnlyItsBytes :
    let s := got fHdr
    let t := (got (fHdr ++ [0x77])).receive fHdr
    s.rxLen = t.rxLen ∧ s.byte 0 = t.byte 0 ∧ 128 ≤ s.rxLen.toNat ∧ s.byte 0 = Config.soh ∧
      (∀ a, a ≤ 132 → s.byte a = t.byte a) ∧ s.byte 133 ≠ t.byte 133 := by decide +kernel

/-- In the short branch, two buffers that differ at 1. -/
theorem witness_ClassifyReadsOnlyItsBytes_short :
    let s := got [0x04]
    let t := (got [0x04, 0x77]).receive [0x04]
    s.rxLen = t.rxLen ∧ s.byte 0 = t.byte 0 ∧ ¬ 128 ≤ s.rxLen.toNat ∧ s.byte 1 ≠ t.byte 1 := by decide +kernel

theorem witness_ClassifyReadsOnlyItsBytes_long :
    let s := got fBig
    128 ≤ s.rxLen.toNat ∧ s.byte 0 = Config.stx := by decide +kernel

theorem witness_HdrxParsesNameAndSize :
    let s := got fHdr
    let nm : List Byte := [0x61, 0x2E, 0x62, 0x69, 0x6E]
    let ds : List Byte := [0x31, 0x30, 0x30]
    let rest : List Byte := List.replicate 119 0
    s.byte 0 = Config.soh ∧
    (List.range 128).map (fun i => s.byte (3 + i)) = nm ++ 0x00 :: (List.replicate 0 0x20 ++ ds ++ rest) ∧
    (∀ b ∈ nm, b ≠ 0x00) ∧ (∀ b ∈ ds, 0x30 ≤ b.toNat ∧ b.toNat ≤ 0x39) ∧
    (rest.head? = some 0 ∧ ¬ (0x30 ≤ (0 : Byte).toNat ∧ (0 : Byte).toNat ≤ 0x39) ∧ ds ≠ []) := by decide +kernel

theorem witness_HdrxWithoutNulNamesAllAndSizesNone :
    let s := got (0x01 :: 0x00 :: 0xFF :: List.replicate 130 0x42)
    s.byte 0 = Config.soh ∧ ∀ i < 128, s.byte (3 + i) ≠ 0x00 := by decide +kernel

theorem witness_HdrxCompletesBehindAMarker :
    (got fHdr).byte 0 = Config.soh ∧ (got fBig).byte 0 = Config.stx ∧ State.reset.byte 0 ≠ Config.soh ∧
      State.reset.byte 0 ≠ Config.stx := by decide +kernel

theorem witness_PollInIdle :
    State.reset.sstate = .idle ∧ State.reset.sessionEn = false ∧ (session .idle fHdr).sstate = .idle ∧
      (session .idle fHdr).sessionEn = true := by decide +kernel

theorem witness_PollInHandshakingRequestsAndWaits :
    (session .handshaking fHdr).sstate = .handshaking ∧ (session .handshaking fHdr).waiting = none := by decide +kernel

theorem witness_PollAfterTheWaitWithoutUnit :
    (waited []).sstate = .handshaking ∧ (waited []).waiting.isSome = true ∧ (waited []).env.waitRet ≠ 0 ∧
      ({ waited [] with dataReady := false } : State).dataReady = false ∧
      (State.env { waited [] with env := ⟨0, true, true, true⟩ }).waitRet = 0 := by decide +kernel

theorem witness_PollAcceptsTheHeader :
    (waited fHdr).sstate = .handshaking ∧ (waited fHdr).waiting.isSome = true ∧ (waited fHdr).env.waitRet ≠ 0 ∧
      (waited fHdr).dataReady = true ∧ classify (waited fHdr) = .pkt128 := by decide +kernel

theorem witness_PollInHandshakingAbortsOnAnythingElse :
    (waited [0x00]).sstate = .handshaking ∧ (waited [0x00]).waiting.isSome = true ∧ (waited [0x00]).env.waitRet ≠ 0 ∧
      (waited [0x00]).dataReady = true ∧ classify (waited [0x00]) ≠ .pkt128 := by decide +kernel

theorem witness_PollInReceivingData :
    (session .receiving fHdr).sstate = .receiving ∧ (session .receiving fHdr).dataReady = true ∧
      classify (session .receiving fHdr) = .pkt128 ∧ classify (session .receiving fZero) = .pkt1024 ∧
      classify (session .receiving [0x04]) = .ctrl .eot ∧ classify (session .receiving [0x06]) = .ctrl .ack := by
  decide +kernel

theorem witness_PollInAwaitingSecondEnd :
    (session .awaitEot2 [0x04]).sstate = .awaitEot2 ∧ (session .awaitEot2 [0x04]).dataReady = true ∧
      classify (session .awaitEot2 [0x04]) = .ctrl .eot ∧ classify (session .awaitEot2 fHdr) ≠ .ctrl .eot ∧
      ({ session .awaitEot2 [0x04] with dataReady := false } : State).dataReady = false := by decide +kernel

theorem witness_PollInAwaitingFinalTail :
    let good (s : State) := s.byte 0 = Config.soh ∧ (s.byte 1).toNat + (s.byte 2).toNat = 255
    (session .awaitTail (fTail 0x12 0x34)).sstate = .awaitTail ∧ (session .awaitTail fBig).dataReady = true ∧
      good (session .awaitTail (fTail 0x12 0x34)) ∧ ¬ good (session .awaitTail fBig) := by decide +kernel

theorem witness_PollWithoutUnitDoesNothing :
    let quiet (q : SState) : State := { session q fHdr with dataReady := false }
    (quiet .receiving).sstate = .receiving ∧ (quiet .awaitEot2).sstate = .awaitEot2 ∧
      (quiet .awaitTail).sstate = .awaitTail ∧ (quiet .awaitTail).dataReady = false := by decide +kernel

theorem witness_TransmitTotalsPerPoll : (session .handshaking fHdr).waiting = none := by decide +kernel

/-- An enabled Idle block, with a POLL to come. -/
def starting : State := { fed (.op (bare 8) Env.default) with sessionEn := true }

theorem witness_TransitionsAreTheTables :
    step starting = .next { starting with input := [], sstate := .handshaking } ∧
      starting.input.head? ≠ some .reset ∧ starting.sstate ≠ SState.handshaking :=
  ⟨rfl, by decide, by decide⟩

/-- For the clause on aborts: a POLL in ReceivingData on an unlisted byte. -/
theorem witness_TransitionsAreTheTables_abort :
    let s := (session .receiving [0x00]).withInput [.op (bare 8) Env.default]
    ∃ t, step s = .next t ∧ s.input.head? ≠ some .reset ∧ s.sstate ≠ t.sstate ∧ t.sstate = .idle ∧
      s.sstate ≠ .awaitTail :=
  ⟨poll Config.params (session .receiving [0x00]), rfl, by decide +kernel, by decide +kernel, by decide +kernel,
    by decide +kernel⟩

theorem witness_SessionEnabledIsReadInIdleOnly :
    State.reset.sstate = .idle ∧ (session .receiving fHdr).sstate ≠ .idle := by decide +kernel

theorem witness_CallbackResultsDoNotBranch :
    (Env.mk 1 false false false).waitRet = State.reset.env.waitRet ∧ Env.mk 1 false false false ≠ State.reset.env := by
  decide

theorem witness_AnUnlistedByteAbortsTheSession :
    let s : State := { (waited []).withInput [.rx [0x00]] with dataReady := false }
    s.sstate ≠ .idle ∧ s.waiting.isSome = true ∧ s.env.waitRet ≠ 0 ∧ s.dataReady = false ∧ s.input = .rx [0x00] :: [] := by
  decide +kernel

theorem witness_DeliveryWritesTheUnit :
    encode (.nak (List.replicate 126 9)) = .unit (0x15 :: List.replicate 126 9) ∧
      (Instr.nak (List.replicate 126 9)).wf = true ∧
      encode (.stx 1 0xFE (List.replicate 1026 9)) = .unit (0x02 :: 1 :: 0xFE :: List.replicate 1026 9) ∧
      (Instr.stx 1 0xFE (List.replicate 1026 9)).wf = true ∧ State.reset.dataReady = false := by decide +kernel

theorem witness_OneOutstandingUnit :
    encode (.can []) = .unit [0x18] ∧ (got fHdr).dataReady = true ∧ State.reset.dataReady = false := by decide +kernel

theorem witness_ControlUnitsClassifyAsTheirRows :
    1 + (List.replicate 126 (0 : Byte)).length < 128 ∧ State.reset.dataReady = false := by decide +kernel

theorem witness_WholePacketsAreAcceptedWhenIntact :
    payH.length = 128 ∧ (0 : Byte).toNat + (0xFF : Byte).toNat = 255 ∧
      (crc16 payH).toNat = 256 * (0x94 : Byte).toNat + (0xE9 : Byte).toNat ∧
      (List.replicate 1024 (0 : Byte)).length = 1024 ∧
      (crc16 (List.replicate 1024 0)).toNat = 256 * (0x00 : Byte).toNat + (0x00 : Byte).toNat ∧
      (crc16 payH).toNat ≠ 256 * (0x94 : Byte).toNat + (0xE8 : Byte).toNat ∧ State.reset.dataReady = false := by
  decide +kernel

/-- Row 23 of table 2.3. -/
theorem witness_StaleBytesCompleteAShortPacket :
    let s := (got fHdr).consume
    s.dataReady = false ∧ 128 ≤ fHdr.length ∧ fHdr.length ≤ 1029 ∧
      ∀ a (h : a < fHdr.length), 128 ≤ a → s.byte a = fHdr[a] := by decide +kernel

/-- Program P6, before its step 4. -/
theorem witness_LoneMarkerOverAStalePairPassesTheTail :
    let s : State := ((session .awaitTail fHdr).consume).withInput [.rx [Config.soh]]
    s.sstate = .awaitTail ∧ s.dataReady = false ∧ s.input = .rx [Config.soh] :: [] ∧
      (s.byte 1).toNat + (s.byte 2).toNat = 255 := by decide +kernel

theorem witness_CrcBlkOfAValidPacketIsZero : classify (got fHdr) = .pkt128 ∧ classify (got fZero) = .pkt1024 := by
  decide +kernel

theorem witness_OnlyTheAdapterWritesTheBuffer :
    step starting = .next { starting with input := [], sstate := .handshaking } ∧
      (∀ bytes, starting.input.head? ≠ some (.rx bytes)) ∧ starting.input.head? ≠ some .reset :=
  ⟨rfl, by simp [starting, fed, State.withInput], by decide⟩

theorem witness_EachElementHasItsWriters :
    exec .nop (got fHdr) = .next (got fHdr) ∧ (∀ bytes, encode .nop ≠ .unit bytes) ∧ Instr.nop ≠ .poll ∧
      Instr.nop.mnemonic ∉ ["CRC.CLR", "CRC.UPD", "CRC.BLK", "FRAME", "CLASSIFY", "TAILCHK", "HDRX", "POLL"] :=
  ⟨rfl, by simp [encode, portOf], by decide, by decide⟩

/-- For an operation that shows a result, and for reset. -/
theorem witness_PortOutputsAreNotLatched :
    let s := (got [0x04]).withInput [.op (bare 5) Env.default]
    step s = .next (((got [0x04]).withInput []).emit (.cls 0x004)) ∧ s.input.head? ≠ some .reset ∧
      step (fed .reset) = .next State.reset ∧ (fed .reset).input.head? = some .reset ∧
      step (fed (.op (bare 9) Env.default)) = .refused (.reservedOp 9) :=
  ⟨rfl, by decide +kernel, rfl, rfl, rfl⟩

theorem witness_BuffersThatReadAlikeAreEqual :
    Memory.wf (got fHdr).buf ∧ Memory.wf ((got [0x04]).receive fHdr).buf := by decide +kernel

theorem witness_EveryStepKeepsTheInvariant :
    starting.Inv ∧ step starting = .next { starting with input := [], sstate := .handshaking } :=
  ⟨⟨by decide, by decide, by decide, by decide, by simp [starting, fed, State.withInput, State.reset],
    by simp [starting, fed, State.withInput, State.reset]⟩, rfl⟩

theorem witness_EveryStepKeepsTheSinkInOrder :
    (session .idle fHdr).SinkOrdered ∧
      (State.SinkOrdered { session .receiving fHdr with cb := [.acceptHeader [0x61] 1] }) ∧ starting.SinkOrdered :=
  ⟨(nomatch ·), fun _ => rfl, (nomatch ·)⟩

end Sys2Proof.Tests
end

section
/-! The proofs of the statements on the adapter's delivery and the buffer (20_memory.md). -/

namespace Sys2Proof.Machine

/-- A unit too long for an empty buffer is refused as well, but on another ground (10_state.md R23). -/
theorem deliver_refused_whileReady_iff {bytes : List Byte} {s : State} :
    deliver bytes s = .refused .deliveryWhileReady ↔ s.dataReady = true := by
  refine ⟨fun h => ?_, deliver_ready⟩
  cases hr : s.dataReady with
  | true => rfl
  | false => by_cases hl : Config.bufCap < bytes.length <;> simp [deliver, hr, hl] at h

/-- Settles O42: a unit instruction is the delivery of its bytes, and R60 is the delivery's own guard. -/
theorem oneOutstandingUnit : Obligations.OneOutstandingUnit := by
  intro i bytes s h
  rw [exec_unit h]
  exact deliver_refused_whileReady_iff

end Sys2Proof.Machine
end

section
/-! The proofs of the statements on the classifier and the tail check (41_classifier.md). -/

namespace Sys2Proof.Machine

/-! ### The operations: one result, and no state written (R109) -/

theorem exec_classify (s : State) : exec .classify s = .next (s.emit (.cls (classify s).cls)) := rfl

theorem exec_tailchk (s : State) : exec .tailchk s = .next (s.emit (.tail (tailOk s))) := rfl

/-! ### The short branch (R105) -/

theorem mem_accepted_iff {b : Byte} :
    b ∈ [Config.eot, Config.ack, Config.nak, Config.can, Config.crq] ↔ ∃ c : Control, b = c.byte := by
  constructor
  · intro h
    simp only [List.mem_cons, List.not_mem_nil, or_false] at h
    rcases h with h | h | h | h | h
    · exact ⟨.eot, h⟩
    · exact ⟨.ack, h⟩
    · exact ⟨.nak, h⟩
    · exact ⟨.can, h⟩
    · exact ⟨.crq, h⟩
  · rintro ⟨c, rfl⟩
    cases c <;> simp [Control.byte]

@[simp] theorem classifyShort_byte (c : Control) : classifyShort c.byte = .ctrl c := by
  cases c <;> rfl

theorem classifyShort_other {b : Byte} (h : ∀ c : Control, b ≠ c.byte) : classifyShort b = .invalid :=
  (if_neg (h .eot)).trans <| (if_neg (h .ack)).trans <| (if_neg (h .nak)).trans <|
    (if_neg (h .can)).trans (if_neg (h .crq))

theorem classifyShort_cls (b : Byte) :
    (classifyShort b).cls =
      if b ∈ [Config.eot, Config.ack, Config.nak, Config.can, Config.crq] then b.setWidth 9 else 0x100 := by
  by_cases h : ∃ c : Control, b = c.byte
  · rw [if_pos (mem_accepted_iff.mpr h)]
    obtain ⟨c, rfl⟩ := h
    rw [classifyShort_byte, Verdict.cls]
  · rw [if_neg (mt mem_accepted_iff.mp h), classifyShort_other (not_exists.mp h), Verdict.cls]

/-- Settles O18: below 128 bytes the verdict is `classifyShort` of `BUF[0]`. -/
theorem classifyShortUnits : Obligations.ClassifyShortUnits := by
  intro s h accepted
  rw [exec_classify, classify_short h, classifyShort_cls]
  rfl

/-! ### The two conditions on a packet (R102, R103), on the bytes as they lie -/

theorem State.payload_eq_map_range (s : State) (n : Nat) :
    s.payload n = (List.range n).map fun i => s.byte (3 + i) := by
  rw [State.payload, State.bytes_eq, List.range'_eq_map_range, List.map_map]
  rfl

/-- Two bytes read as one big-endian number (20_memory.md R52). -/
theorem toNat_append_bytes (a b : Byte) : (a ++ b : Word16).toNat = 256 * a.toNat + b.toNat := by
  rw [BitVec.toNat_append, ← Nat.shiftLeft_add_eq_or_of_lt b.isLt, Nat.shiftLeft_eq, Nat.mul_comm]

theorem State.rxcrc_toNat (s : State) (n : Nat) :
    (s.rxcrc n).toNat = 256 * (s.byte (3 + n)).toNat + (s.byte (4 + n)).toNat := by
  rw [State.rxcrc, toNat_append_bytes, Nat.add_right_comm]

theorem State.packetOk_iff (s : State) (n : Nat) : s.packetOk n ↔ s.seqOk = true ∧ s.crcOk n = true := by
  rw [seqOk_iff, crcOk_iff, ← BitVec.toNat_inj, State.rxcrc_toNat, State.payload_eq_map_range]
  rfl

/-! ### The long branch (R106) -/

theorem classifyLong_packet_or_invalid (s : State) :
    classifyLong s = .pkt128 ∨ classifyLong s = .pkt1024 ∨ classifyLong s = .invalid := by
  unfold classifyLong
  split
  · exact .inr (.inr rfl)
  · split_ifs <;> simp

theorem classify_eq_pkt128_iff_packetOk {s : State} (h : 128 ≤ s.rxLen.toNat) :
    classify s = .pkt128 ↔ s.byte 0 = Config.soh ∧ s.packetOk 128 := by
  rw [classify_eq_pkt128, State.packetOk_iff]
  exact and_iff_right h

theorem classify_eq_pkt1024_iff_packetOk {s : State} (h : 128 ≤ s.rxLen.toNat) :
    classify s = .pkt1024 ↔ s.byte 0 = Config.stx ∧ s.packetOk 1024 := by
  rw [classify_eq_pkt1024, State.packetOk_iff]
  exact and_iff_right h

/-- Settles O19: a long unit's verdict is one of three, and R106 says when it is either of the two packets. -/
theorem classifyLongUnits : Obligations.ClassifyLongUnits := by
  intro s h
  rw [← classify_eq_pkt128_iff_packetOk h, ← classify_eq_pkt1024_iff_packetOk h]
  refine ⟨(classify s).cls, exec_classify s, ?_, fun hno => ?_⟩
  · rintro (hv | hv)
    · rw [hv, ((classify_eq_pkt128_iff_packetOk h).mp hv).1, Verdict.cls]
    · rw [hv, ((classify_eq_pkt1024_iff_packetOk h).mp hv).1, Verdict.cls]
  · have hcases := classifyLong_packet_or_invalid s
    rw [← classify_long h, ← or_assoc] at hcases
    rw [hcases.resolve_left hno, Verdict.cls]

/-! ### What the classifier reads (R109, 20_memory.md R56) -/

theorem State.seqOk_congr {s t : State} (h1 : s.byte 1 = t.byte 1) (h2 : s.byte 2 = t.byte 2) : s.seqOk = t.seqOk := by
  simp only [State.seqOk, State.seq, State.nseq, h1, h2]

theorem State.crcOk_congr {s t : State} {n : Nat} (h : ∀ a, a ≤ n + 4 → s.byte a = t.byte a) :
    s.crcOk n = t.crcOk n := by
  have hpay : s.payload n = t.payload n :=
    State.bytes_congr fun a _ ha => h a (by simp only [Config.hdrLen] at ha; omega)
  have hcrc : s.rxcrc n = t.rxcrc n := by
    rw [State.rxcrc, State.rxcrc, h _ (by simp only [Config.hdrLen]; omega), h _ (by simp only [Config.hdrLen]; omega)]
  rw [State.crcOk, State.crcOk, hpay, hcrc]

theorem State.packetTests_congr {s t : State} {n : Nat} (h : ∀ a, a ≤ n + 4 → s.byte a = t.byte a) :
    (s.seqOk && s.crcOk n) = (t.seqOk && t.crcOk n) := by
  rw [State.seqOk_congr (h 1 (by omega)) (h 2 (by omega)), State.crcOk_congr h]

theorem classifyLong_congr_bytes {s t : State} (h0 : s.byte 0 = t.byte 0)
    (hsoh : s.byte 0 = Config.soh → ∀ a, a ≤ 132 → s.byte a = t.byte a)
    (hstx : s.byte 0 = Config.stx → ∀ a, a ≤ 1028 → s.byte a = t.byte a) : classifyLong s = classifyLong t := by
  have hm : t.marker = s.marker := h0.symm
  by_cases h1 : s.marker = Config.soh
  · rw [classifyLong_soh h1, classifyLong_soh (hm.trans h1), State.packetTests_congr (hsoh h1)]
  · by_cases h2 : s.marker = Config.stx
    · rw [classifyLong_stx h2, classifyLong_stx (hm.trans h2), State.packetTests_congr (hstx h2)]
    · rw [classifyLong_other h1 h2, classifyLong_other (hm ▸ h1) (hm ▸ h2)]

/-- `classify_congr` with R56's bytes in place of the whole buffer. -/
theorem classify_congr_bytes {s t : State} (hl : s.rxLen = t.rxLen) (h0 : s.byte 0 = t.byte 0)
    (hsoh : 128 ≤ s.rxLen.toNat → s.byte 0 = Config.soh → ∀ a, a ≤ 132 → s.byte a = t.byte a)
    (hstx : 128 ≤ s.rxLen.toNat → s.byte 0 = Config.stx → ∀ a, a ≤ 1028 → s.byte a = t.byte a) :
    classify s = classify t := by
  by_cases h : s.rxLen.toNat < Config.ctrlThreshold
  · rw [classify_short h, classify_short (hl ▸ h), State.marker, State.marker, h0]
  · have hlong : Config.ctrlThreshold ≤ s.rxLen.toNat := Nat.not_lt.mp h
    rw [classify_long hlong, classify_long (hl ▸ hlong), classifyLong_congr_bytes h0 (hsoh hlong) (hstx hlong)]

/-- Settles O20: each state shows its own verdict, and the two verdicts are one. -/
theorem classifyReadsOnlyItsBytes : Obligations.ClassifyReadsOnlyItsBytes := by
  intro s t hl h0 hsoh hstx
  have hv : classify s = classify t := classify_congr_bytes hl h0 hsoh hstx
  exact ⟨(classify s).cls, exec_classify s, hv ▸ exec_classify t⟩

/-! ### The tail check (R108) -/

theorem tailOk_iff (s : State) :
    tailOk s = true ↔ s.byte 0 = Config.soh ∧ (s.byte 1).toNat + (s.byte 2).toNat = 255 := by
  rw [tailOk, Bool.and_eq_true, beq_iff_eq, seqOk_iff]
  rfl

/-- Settles O22: `TAILCHK` shows `tailOk`, for which R102's sum is `seqOk_iff`. -/
theorem tailchkTestsMarkerAndPair : Obligations.TailchkTestsMarkerAndPair := by
  intro s ok
  have hok : tailOk s = ok := Bool.eq_iff_iff.mpr ((tailOk_iff s).trans decide_eq_true_iff.symm)
  rw [exec_tailchk, hok]
  rfl

end Sys2Proof.Machine
end

section
/-! The proofs of the statements on the header extractor (42_header_extractor.md). -/

namespace Sys2Proof.Machine

/-! ### The operation (R120, R123, R124) -/

/-- What HDRX leaves when the payload holds the name `nm` and the size `size`: the metadata, the one callback, the four
results. -/
def State.showHeader (s : State) (nm : List Byte) (size : Word32) : State :=
  ((s.setHeader nm size).call (.acceptHeader nm size)).emit (.hdr nm (BitVec.ofNat 6 nm.length) size s.env.hdrRet)

theorem exec_hdrx_of_plen {s : State} {n : Nat} (h : plen s.marker = some n) :
    exec .hdrx s = .next (s.showHeader (headerName (s.payload n)) (headerSize (s.payload n))) := by
  simp only [exec, execHdrx, h, extractHeader_eq]
  rfl

theorem exec_hdrx_refused {s : State} (h : plen s.marker = none) :
    exec .hdrx s = .refused (.noPacketInBuffer s.marker) := by
  simp only [exec, execHdrx, h]

/-- Settles O26: a payload length is selected behind the two markers and nowhere else. -/
theorem hdrxCompletesBehindAMarker : Obligations.HdrxCompletesBehindAMarker := by
  refine fun s => ⟨fun hmark => ?_, fun hsoh hstx => exec_hdrx_refused (plen_none.mpr ⟨hsoh, hstx⟩)⟩
  obtain ⟨n, hn⟩ : ∃ n, plen s.marker = some n := by
    rcases hmark with hsoh | hstx
    · exact ⟨128, plen_some.mpr (.inl ⟨hsoh, rfl⟩)⟩
    · exact ⟨1024, plen_some.mpr (.inr ⟨hstx, rfl⟩)⟩
  exact ⟨_, exec_hdrx_of_plen hn, rfl⟩

/-! ### The name in its cells (R121) -/

/-- `NAME_LEN` does not wrap. -/
theorem nameLen_toNat {nm : List Byte} (h : nm.length ≤ Config.nameMax) : (BitVec.ofNat 6 nm.length).toNat = nm.length :=
  (BitVec.toNat_ofNat _ _).trans (Nat.mod_eq_of_lt (Nat.lt_succ_of_le h))

theorem nameCells_take_length (ctr : Nat) {nm : List Byte} (h : nm.length ≤ Config.nameMax) :
    (nameCells ctr nm).toList.take nm.length = nm := by
  refine List.ext_getElem (by simpa using h) fun i _ hi => ?_
  rw [List.getElem_take, Vector.getElem_toList, nameCells_getElem ctr nm hi]

/-- A name of `NAME_MAX` bytes leaves no cell free. -/
theorem nameCells_toList_of_full (ctr : Nat) {nm : List Byte} (h : nm.length = Config.nameMax) :
    (nameCells ctr nm).toList = nm := by
  have htake := nameCells_take_length ctr h.le
  rwa [List.take_of_length_le (by simp [h])] at htake

/-! ### The number (R122, R125) -/

/-- One digit: the model's wrapping step is the step on numbers, modulo 2^32. -/
theorem digitStep_ofNat {b : Byte} (h : isDigit b = true) (v : Nat) :
    BitVec.ofNat 32 v * 10 + (b - Config.digit0).setWidth 32 = BitVec.ofNat 32 (10 * v + (b.toNat - 0x30)) := by
  obtain ⟨hlo, hhi⟩ := isDigit_iff.mp h
  have hsub : (b - Config.digit0).toNat = b.toNat - 0x30 := BitVec.toNat_sub_of_le (BitVec.le_def.mpr hlo)
  apply BitVec.eq_of_toNat_eq
  simp only [BitVec.toNat_add, BitVec.toNat_mul, BitVec.toNat_ofNat, BitVec.toNat_setWidth, BitVec.reduceToNat, hsub]
  omega

theorem decimalFrom_ofNat {ds : List Byte} (h : ∀ b ∈ ds, isDigit b = true) (v : Nat) :
    decimalFrom ds (BitVec.ofNat 32 v) =
      BitVec.ofNat 32 (ds.foldl (fun v b => 10 * v + (b.toNat - 0x30)) v) := by
  induction ds generalizing v with
  | nil => rfl
  | cons b ds ih =>
    rw [List.forall_mem_cons] at h
    rw [decimalFrom_cons, digitStep_ofNat h.1, ih h.2, List.foldl_cons]

theorem decimalFrom_zero_toNat {ds : List Byte} (h : ∀ b ∈ ds, isDigit b = true) :
    (decimalFrom ds 0).toNat = decimal ds % 2 ^ 32 :=
  (congrArg BitVec.toNat (decimalFrom_ofNat h 0)).trans (BitVec.toNat_ofNat _ _)

/-! ### The payload with a NUL (R121, R122) -/

theorem nameRun_append_nul {nm : List Byte} (h : ∀ b ∈ nm, b ≠ Config.nul) (tail : List Byte) :
    nameRun (nm ++ Config.nul :: tail) = nm := by
  rw [nameRun, List.takeWhile_append_of_pos fun b hb => bne_iff_ne.mpr (h b hb), List.takeWhile_cons_of_neg (by simp),
    List.append_nil]

theorem headerName_append_nul {nm : List Byte} (h : ∀ b ∈ nm, b ≠ Config.nul) (tail : List Byte) :
    headerName (nm ++ Config.nul :: tail) = nm.take 63 := by
  rw [headerName, nameRun_append_nul h]

/-- The size is looked for after the true NUL (D25), however long the name before it. -/
theorem sizeDigits_append_nul {nm : List Byte} (h : ∀ b ∈ nm, b ≠ Config.nul) (tail : List Byte) :
    sizeDigits (nm ++ Config.nul :: tail) = (tail.dropWhile fun b => b == Config.space).takeWhile isDigit := by
  rw [sizeDigits, nameRun_append_nul h, ← List.drop_drop, List.drop_left, List.drop_one, List.tail_cons]

theorem not_isDigit_space : isDigit Config.space = false := by decide

/-- No space is skipped behind the first byte that is none: a digit, or the rest where there is no digit. -/
theorem dropWhile_space_digits {ds rest : List Byte} (hds : ∀ b ∈ ds, isDigit b = true)
    (hrest : ∀ b, rest.head? = some b → ds = [] → b ≠ Config.space) :
    (ds ++ rest).dropWhile (fun b => b == Config.space) = ds ++ rest := by
  cases ds with
  | nil =>
    cases rest with
    | nil => rfl
    | cons b rest => exact List.dropWhile_cons_of_neg (by simpa using hrest b rfl rfl)
  | cons d ds =>
    refine List.dropWhile_cons_of_neg fun hd => ?_
    have := hds d List.mem_cons_self
    rw [beq_iff_eq.mp hd, not_isDigit_space] at this
    cases this

/-- R122's scan of the size field: spaces, digits, and a rest it does not enter. -/
theorem sizeField_digits (k : Nat) {ds rest : List Byte} (hds : ∀ b ∈ ds, isDigit b = true)
    (hrest : ∀ b, rest.head? = some b → ¬ isDigit b ∧ (ds = [] → b ≠ Config.space)) :
    ((List.replicate k Config.space ++ ds ++ rest).dropWhile fun b => b == Config.space).takeWhile isDigit = ds := by
  have hspaces : ∀ b ∈ List.replicate k Config.space, (b == Config.space) = true :=
    fun b hb => beq_iff_eq.mpr (List.eq_of_mem_replicate hb)
  have hstop : rest.takeWhile isDigit = [] := by
    rw [← List.head?_eq_none_iff, List.head?_takeWhile, Option.filter_eq_none_iff]
    exact fun b hb => (hrest b hb).1
  rw [List.append_assoc, List.dropWhile_append_of_pos hspaces, dropWhile_space_digits hds fun b hb => (hrest b hb).2,
    List.takeWhile_append_of_pos hds, hstop, List.append_nil]

/-- Settles O24: the payload's parts are the extractor's, and the name and the number come back as they are stored. -/
theorem hdrxParsesNameAndSize : Obligations.HdrxParsesNameAndSize := by
  intro s n nm k ds rest hmark hpay hnm hds hrest
  have hdig : ∀ b ∈ ds, isDigit b = true := fun b hb => isDigit_iff.mpr (hds b hb)
  have hstop : ∀ b, rest.head? = some b → ¬ isDigit b ∧ (ds = [] → b ≠ Config.space) := fun b hb =>
    (hrest b hb).imp_left (mt isDigit_iff.mp)
  rw [← State.payload_eq_map_range] at hpay
  have hname : headerName (s.payload n) = nm.take 63 := by rw [hpay]; exact headerName_append_nul hnm _
  have hsize : headerSize (s.payload n) = decimalFrom ds 0 := by
    have hdigits : sizeDigits (s.payload n) = ds := by
      rw [hpay]; exact (sizeDigits_append_nul hnm _).trans (sizeField_digits k hdig hstop)
    rw [headerSize, hdigits]
  have hlen : (nm.take 63).length = min nm.length 63 := by rw [List.length_take, Nat.min_comm]
  have hle : (nm.take 63).length ≤ Config.nameMax := List.length_take_le _ _
  refine ⟨s.showHeader (nm.take 63) (decimalFrom ds 0), ?_, rfl, ?_, ?_, decimalFrom_zero_toNat hdig⟩
  · rw [exec_hdrx_of_plen (plen_some.mpr hmark), hname, hsize]
  · exact (nameLen_toNat hle).trans hlen
  · rw [← hlen]
    exact nameCells_take_length s.freeCtr hle

/-! ### The payload without a NUL (R121, R122, D25) -/

theorem nameRun_of_no_nul {pay : List Byte} (h : ∀ b ∈ pay, b ≠ Config.nul) : nameRun pay = pay :=
  List.takeWhile_eq_self_iff.mpr fun b hb => bne_iff_ne.mpr (h b hb)

theorem headerName_of_no_nul {pay : List Byte} (h : ∀ b ∈ pay, b ≠ Config.nul) : headerName pay = pay.take 63 := by
  rw [headerName, nameRun_of_no_nul h]

theorem headerSize_of_no_nul {pay : List Byte} (h : ∀ b ∈ pay, b ≠ Config.nul) : headerSize pay = 0 := by
  have hnone : pay.drop (pay.length + 1) = [] := List.drop_eq_nil_of_le (Nat.le_succ _)
  rw [headerSize, sizeDigits, nameRun_of_no_nul h, hnone]
  rfl

/-- Settles O25: both payloads hold more than 63 bytes, so the name fills its cells. -/
theorem hdrxWithoutNulNamesAllAndSizesNone : Obligations.HdrxWithoutNulNamesAllAndSizesNone := by
  intro s n hmark hno
  have hnul : ∀ b ∈ s.payload n, b ≠ Config.nul := by
    rw [State.payload_eq_map_range, List.forall_mem_map]
    exact fun i hi => hno i (List.mem_range.mp hi)
  have hn : 63 ≤ n := by omega
  have hname : headerName (s.payload n) = (List.range 63).map fun i => s.byte (3 + i) := by
    rw [headerName_of_no_nul hnul, State.payload_eq_map_range, ← List.map_take, List.take_range, Nat.min_eq_left hn]
  have hlen : (headerName (s.payload n)).length = Config.nameMax := by rw [hname, List.length_map, List.length_range]
  rw [← hname]
  refine ⟨s.showHeader (headerName (s.payload n)) 0, ?_, ?_, rfl, ?_, rfl⟩
  · rw [exec_hdrx_of_plen (plen_some.mpr hmark), headerSize_of_no_nul hnul]
  · exact (nameLen_toNat hlen.le).trans hlen
  · exact nameCells_toList_of_full s.freeCtr hlen

end Sys2Proof.Machine
end

section
/-! The proofs of the statements on the receive sequencer (43_receive_sequencer.md). -/

namespace Sys2Proof.Machine

/-! ### `PollStep` is POLL's function, so a POLL is computed by naming its outcome -/

theorem handshakeUnit_of_ne (p : Config.Params) {s : State} (h : classify s ≠ .pkt128) : handshakeUnit p s = abort p s := by
  unfold handshakeUnit
  split <;> simp_all

theorem receivingUnit_of_ne (p : Config.Params) {s : State}
    (h : classify s ≠ .pkt128 ∧ classify s ≠ .pkt1024 ∧ classify s ≠ .ctrl .eot) : receivingUnit p s = abort p s := by
  unfold receivingUnit
  split <;> simp_all

theorem awaitEot2Unit_of_ne (p : Config.Params) {s : State} (h : classify s ≠ .ctrl .eot) :
    awaitEot2Unit p s = abort p s := by
  unfold awaitEot2Unit
  split <;> simp_all

theorem onUnit_ready (act : State → State) {s : State} (h : s.dataReady = true) : onUnit act s = act s.consume :=
  if_pos h

theorem onUnit_none (act : State → State) {s : State} (h : s.dataReady = false) : onUnit act s = s := by
  simp [onUnit, h]

theorem poll_phaseB (p : Config.Params) {s : State} (hs : s.sstate = .handshaking) (hw : s.waiting.isSome = true) :
    poll p s = handshakeB p s.endWait := by
  obtain ⟨ms, hms⟩ := Option.isSome_iff_exists.mp hw
  simp only [poll, hs, hms]

/-- The converse of `poll_step`. -/
theorem PollStep.poll_eq {p : Config.Params} {s t : State} (h : PollStep p s t) : poll p s = t := by
  cases h with
  | quiet hs he => simp [poll, hs, pollIdle, he]
  | start hs he => simp [poll, hs, pollIdle, he]
  | request hs hw => simp only [poll, hs, hw, handshakeA]
  | skip hs hw hr =>
    rw [poll_phaseB p hs hw]
    rcases hr with ⟨hr, hz⟩ | ⟨hr, hd⟩
    · simp [handshakeB, hr, hz]
    · simp [handshakeB, hr, hd]
  | waitAbort hs hw hr hz => simp [poll_phaseB p hs hw, handshakeB, hr, hz]
  | header hs hw hr hd hc =>
    simp [poll_phaseB p hs hw, handshakeB, hr, hd, handshakeUnit, hc, extractHeader_eq]
  | noHeader hs hw hr hd hc =>
    simp [poll_phaseB p hs hw, handshakeB, hr, hd, handshakeUnit_of_ne, hc]
  | noUnit hs hd =>
    cases hq : s.sstate <;> simp_all [SState.inSession, poll, onUnit_none]
  | packet n hs hd hc =>
    rcases hc with ⟨hc, rfl⟩ | ⟨hc, rfl⟩ <;> simp [poll, hs, onUnit_ready, hd, receivingUnit, hc, receivePacket]
  | firstEnd hs hd hc => simp [poll, hs, onUnit_ready, hd, receivingUnit, hc]
  | noPacket hs hd hc => simp [poll, hs, onUnit_ready, hd, receivingUnit_of_ne, hc]
  | secondEnd hs hd hc => simp [poll, hs, onUnit_ready, hd, awaitEot2Unit, hc]
  | noSecondEnd hs hd hc => simp [poll, hs, onUnit_ready, hd, awaitEot2Unit_of_ne, hc]
  | finish hs hd hc => simp [poll, hs, onUnit_ready, hd, awaitTailUnit, hc]
  | noTail hs hd hc => simp [poll, hs, onUnit_ready, hd, awaitTailUnit, hc]

theorem PollStep.exec_eq {s t : State} (h : PollStep Config.params s t) : exec .poll s = .next t :=
  congrArg Host.Outcome.next h.poll_eq

/-! ### One POLL, state by state (R131 to R137) -/

/-- Settles O27: the enable flag picks the outcome. -/
theorem pollInIdle : Obligations.PollInIdle := fun _ hs =>
  ⟨fun he => (PollStep.start hs he).exec_eq, fun he => (PollStep.quiet hs he).exec_eq⟩

/-- Settles O28. -/
theorem pollInHandshakingRequestsAndWaits : Obligations.PollInHandshakingRequestsAndWaits := fun _ hs hw =>
  (PollStep.request hs hw).exec_eq

/-- Settles O29: a zero return skips or aborts as `WAIT_ZERO` says; another return with no unit skips. -/
theorem pollAfterTheWaitWithoutUnit : Obligations.PollAfterTheWaitWithoutUnit := by
  refine fun s hs hw => ⟨fun hr => ?_, fun hr hd => (PollStep.skip hs hw (.inr ⟨hr, hd⟩)).exec_eq⟩
  cases hz : Config.params.waitZero with
  | skip => exact (PollStep.skip hs hw (.inl ⟨hr, hz⟩)).exec_eq
  | abort => exact (PollStep.waitAbort hs hw hr hz).exec_eq

/-- Settles O30: a valid 128-byte packet begins with `SOH`, so HDRX extracts from the same payload. -/
theorem pollAcceptsTheHeader : Obligations.PollAcceptsTheHeader := by
  intro s hs hw hr hd hc
  have hplen : plen s.marker = some Config.p128 := plen_some.mpr (.inl ⟨(classify_eq_pkt128.mp hc).2.1, rfl⟩)
  exact ⟨_, _, (PollStep.header hs hw hr hd hc).exec_eq, exec_hdrx_of_plen hplen, rfl⟩

/-- Settles O31. -/
theorem pollInHandshakingAbortsOnAnythingElse : Obligations.PollInHandshakingAbortsOnAnythingElse :=
  fun _ hs hw hr hd hc => (PollStep.noHeader hs hw hr hd hc).exec_eq

/-- Settles O32: the three outcomes with a unit; the sink's region is the payload, byte by byte. -/
theorem pollInReceivingData : Obligations.PollInReceivingData := by
  refine fun s hs hd => ⟨fun n hc => ?_, fun hc => (PollStep.firstEnd hs hd hc).exec_eq,
    fun h128 h1024 heot => (PollStep.noPacket hs hd ⟨h128, h1024, heot⟩).exec_eq⟩
  rw [← State.payload_eq_map_range]
  exact (PollStep.packet n hs hd hc).exec_eq

/-- Settles O33. -/
theorem pollInAwaitingSecondEnd : Obligations.PollInAwaitingSecondEnd := fun _ hs =>
  ⟨fun hd => (PollStep.noUnit (congrArg SState.inSession hs) hd).exec_eq,
    fun hd hc => (PollStep.secondEnd hs hd hc).exec_eq, fun hd hc => (PollStep.noSecondEnd hs hd hc).exec_eq⟩

/-- Settles O34: the tail check on the bytes is `tailOk`. -/
theorem pollInAwaitingFinalTail : Obligations.PollInAwaitingFinalTail := fun s hs hd =>
  ⟨fun hgood => (PollStep.finish hs hd ((tailOk_iff s).mpr hgood)).exec_eq,
    fun hbad => (PollStep.noTail hs hd (Bool.eq_false_iff.mpr (mt (tailOk_iff s).mp hbad))).exec_eq⟩

/-- Settles O35: the three states are those of a session past its header. -/
theorem pollWithoutUnitDoesNothing : Obligations.PollWithoutUnitDoesNothing := by
  intro s hs hd
  have hsession : s.sstate.inSession = true := by rcases hs with hs | hs | hs <;> rw [hs] <;> rfl
  exact (PollStep.noUnit hsession hd).exec_eq

/-! ### The bytes of a whole POLL (R147) -/

/-- A POLL that leaves no wait in progress is whole. -/
theorem PollStep.tx_pollWhole {p : Config.Params} {s t : State} {bs : List Byte} (h : PollStep p s t)
    (hw : t.waiting = none) (htx : t.tx = s.tx ++ bs) : (pollWhole p s).tx = s.tx ++ bs := by
  simp [pollWhole, h.poll_eq, hw, htx]

/-- A Handshaking POLL goes on from the request and the wait. -/
theorem PollStep.tx_pollWhole_handshaking {p : Config.Params} {s t : State} {bs : List Byte}
    (h : PollStep p (handshakeA p s) t) (hs : s.sstate = .handshaking) (hw : s.waiting = none)
    (htx : t.tx = s.tx ++ [Config.crq] ++ bs) : (pollWhole p s).tx = s.tx ++ Config.crq :: bs := by
  have hA : poll p s = handshakeA p s := (PollStep.request hs hw).poll_eq
  have hwait : (handshakeA p s).waiting = some p.handshakeDelayMs := rfl
  simp [pollWhole, hA, hwait, h.poll_eq, htx]

theorem classify_handshakeA (p : Config.Params) (s : State) : classify (handshakeA p s) = classify s :=
  classify_congr rfl rfl

/-- Settles O36: each row is one outcome of POLL, in Handshaking one after the request. -/
theorem transmitTotalsPerPoll : Obligations.TransmitTotalsPerPoll := by
  intro p s hw
  have hnil : s.tx = s.tx ++ [] := (List.append_nil _).symm
  have ready (hd : ¬ s.dataReady = false) : s.dataReady = true := Bool.eq_true_of_not_eq_false hd
  cases hs : s.sstate with
  | idle =>
    cases he : s.sessionEn with
    | false => exact (PollStep.quiet hs he).tx_pollWhole hw hnil
    | true => exact (PollStep.start hs he).tx_pollWhole hw hnil
  | handshaking =>
    have hsA : (handshakeA p s).sstate = .handshaking := hs
    have hnilA : s.tx ++ [Config.crq] = s.tx ++ [Config.crq] ++ [] := (List.append_nil _).symm
    dsimp only
    split_ifs with hr hd hc
    · cases hz : p.waitZero with
      | skip => exact (PollStep.skip hsA rfl (.inl ⟨hr, hz⟩)).tx_pollWhole_handshaking hs hw hnilA
      | abort => exact (PollStep.waitAbort hsA rfl hr hz).tx_pollWhole_handshaking hs hw rfl
    · exact (PollStep.skip hsA rfl (.inr ⟨hr, hd⟩)).tx_pollWhole_handshaking hs hw hnilA
    · exact (PollStep.header hsA rfl hr (ready hd)
        ((classify_handshakeA p s).trans hc)).tx_pollWhole_handshaking hs hw rfl
    · exact (PollStep.noHeader hsA rfl hr (ready hd)
        ((classify_handshakeA p s).trans_ne hc)).tx_pollWhole_handshaking hs hw rfl
  | receiving =>
    dsimp only
    split_ifs with hd hpkt heot
    · exact (PollStep.noUnit (congrArg SState.inSession hs) hd).tx_pollWhole hw hnil
    · obtain ⟨n, hn⟩ : ∃ n, classify s = .pkt128 ∧ n = Config.p128 ∨ classify s = .pkt1024 ∧ n = Config.p1024 :=
        hpkt.elim (fun h => ⟨_, .inl ⟨h, rfl⟩⟩) fun h => ⟨_, .inr ⟨h, rfl⟩⟩
      exact (PollStep.packet n hs (ready hd) hn).tx_pollWhole hw rfl
    · exact (PollStep.firstEnd hs (ready hd) heot).tx_pollWhole hw rfl
    · obtain ⟨h128, h1024⟩ := not_or.mp hpkt
      exact (PollStep.noPacket hs (ready hd) ⟨h128, h1024, heot⟩).tx_pollWhole hw rfl
  | awaitEot2 =>
    dsimp only
    split_ifs with hd heot
    · exact (PollStep.noUnit (congrArg SState.inSession hs) hd).tx_pollWhole hw hnil
    · exact (PollStep.secondEnd hs (ready hd) heot).tx_pollWhole hw rfl
    · exact (PollStep.noSecondEnd hs (ready hd) heot).tx_pollWhole hw rfl
  | awaitTail =>
    dsimp only
    split_ifs with hd htail
    · exact (PollStep.noUnit (congrArg SState.inSession hs) hd).tx_pollWhole hw hnil
    · exact (PollStep.finish hs (ready hd) htail).tx_pollWhole hw rfl
    · exact (PollStep.noTail hs (ready hd) (Bool.eq_false_iff.mpr htail)).tx_pollWhole hw rfl

/-! ### `SESSION_EN` (R140) -/

/-- Outside Idle a POLL that stays in the session carries `SESSION_EN` along, and one that ends it has no memory of the
flag. -/
theorem PollStep.of_setSessionEn {p : Config.Params} {s t : State} (h : PollStep p s t) (hs : s.sstate ≠ .idle)
    (b : Bool) :
    (t.sstate ≠ .idle ∧ t.sessionEn = s.sessionEn ∧ PollStep p (s.setSessionEn b) (t.setSessionEn b)) ∨
    (t.sstate = .idle ∧ t.sessionEn = false ∧ PollStep p (s.setSessionEn b) t) := by
  have hv : classify (s.setSessionEn b) = classify s := classify_congr rfl rfl
  have ht : tailOk (s.setSessionEn b) = tailOk s := tailOk_congr rfl
  cases h with
  | quiet hi _ | start hi _ => exact absurd hi hs
  | request hi hw => exact .inl ⟨hs, rfl, .request hi hw⟩
  | skip hi hw hr => exact .inl ⟨hs, rfl, .skip hi hw hr⟩
  | waitAbort hi hw hr hz => exact .inr ⟨rfl, rfl, .waitAbort hi hw hr hz⟩
  | header hi hw hr hd hc => exact .inl ⟨by simp, rfl, .header hi hw hr hd (hv.trans hc)⟩
  | noHeader hi hw hr hd hc => exact .inr ⟨rfl, rfl, .noHeader hi hw hr hd (hv.trans_ne hc)⟩
  | noUnit hi hd => exact .inl ⟨hs, rfl, .noUnit hi hd⟩
  | packet n hi hd hc => exact .inl ⟨hs, rfl, .packet n hi hd (hv ▸ hc)⟩
  | firstEnd hi hd hc => exact .inl ⟨by simp, rfl, .firstEnd hi hd (hv.trans hc)⟩
  | noPacket hi hd hc => exact .inr ⟨rfl, rfl, .noPacket hi hd (hv ▸ hc)⟩
  | secondEnd hi hd hc => exact .inl ⟨by simp, rfl, .secondEnd hi hd (hv.trans hc)⟩
  | noSecondEnd hi hd hc => exact .inr ⟨rfl, rfl, .noSecondEnd hi hd (hv.trans_ne hc)⟩
  | finish hi hd hc => exact .inr ⟨rfl, rfl, .finish hi hd (ht.trans hc)⟩
  | noTail hi hd hc => exact .inr ⟨rfl, rfl, .noTail hi hd (ht.trans hc)⟩

/-- Settles O38: in Idle the flag picks the outcome; elsewhere the same outcome is reached with both values. -/
theorem sessionEnabledIsReadInIdleOnly : Obligations.SessionEnabledIsReadInIdleOnly := by
  refine fun s b => ⟨fun hs => ?_, fun hs => ?_⟩
  · cases b with
    | false =>
      rw [← hs]
      exact (PollStep.quiet (s := s.setSessionEn false) hs rfl).exec_eq
    | true => exact (PollStep.start (s := s.setSessionEn true) hs rfl).exec_eq
  · have hstep := poll_step Config.params s
    refine ⟨poll Config.params s, hstep.exec_eq, ?_⟩
    rcases hstep.of_setSessionEn hs b with ⟨ht, hen, hstep'⟩ | ⟨ht, hen, hstep'⟩
    · rw [if_neg ht, if_neg ht]
      exact ⟨hstep'.exec_eq, hen⟩
    · rw [if_pos ht, if_pos ht]
      refine ⟨hstep'.exec_eq.trans ?_, hen⟩
      rw [← hen]

end Sys2Proof.Machine
end

section
/-! The proofs of the statements on what every step of the sequencer keeps (43_receive_sequencer.md R139, 10_state.md). -/

namespace Sys2Proof.Machine

/-! ### The step, for claims about every step -/

theorem encode_of_decodePort {w : PortWord} {i : Instr} (h : decode (.port w) = .ok i) : ∃ v, encode i = .port v := by
  simp only [decode, decodePort] at h
  split at h <;> cases h <;> exact ⟨_, rfl⟩

/-- What a predicate needs to be kept by every step: that POLL, a header extraction and each update of the other
operations and agents keep it. -/
structure KeptByUpdates (P : State → Prop) : Prop where
  withInput : ∀ {s} xs, P s → P (s.withInput xs)
  withEnv : ∀ {s} env, P s → P (s.withEnv env)
  emit : ∀ {s} r, P s → P (s.emit r)
  setCrc : ∀ {s} c, P s → P (s.setCrc c)
  setSessionEn : ∀ {s} b, P s → P (s.setSessionEn b)
  receive : ∀ {s} bytes, bytes.length ≤ Config.bufCap → P s → P (s.receive bytes)
  extractHeader : ∀ {s} n, P s → P (extractHeader n s).2
  poll : ∀ {s}, P s → P (poll Config.params s)
  resetNow : ∀ {s}, P s → P s.resetNow

theorem KeptByUpdates.exec_port {P : State → Prop} (hP : KeptByUpdates P) {i : Instr} {w : PortWord} {s t : State}
    (hi : encode i = .port w) (hs : P s) (h : exec i s = .next t) : P t := by
  rcases exec_port_cases hi h with rfl | rfl | ⟨r, rfl⟩ | ⟨c, r, rfl⟩ | ⟨n, r, -, rfl⟩
  · exact hs
  · exact hP.poll hs
  · exact hP.emit r hs
  · exact hP.emit r (hP.setCrc c hs)
  · exact hP.emit r (hP.extractHeader n hs)

theorem KeptByUpdates.stimulate {P : State → Prop} (hP : KeptByUpdates P) {x : Stimulus} {s t : State} (hs : P s)
    (h : stimulate x s = .next t) : P t := by
  rcases stimulate_next h with ⟨w, env, i, rfl, -, hi, ht⟩ | ⟨env, rfl, -, rfl⟩ | ⟨bytes, rfl, -, hl, rfl⟩ | ⟨rfl, rfl⟩ |
    ⟨rfl, rfl⟩ | ⟨rfl, rfl⟩
  · obtain ⟨v, hv⟩ := encode_of_decodePort hi
    exact hP.exec_port hv (hP.withEnv env hs) ht
  · exact hP.poll (hP.withEnv env hs)
  · exact hP.receive bytes hl hs
  · exact hP.setSessionEn true hs
  · exact hP.setSessionEn false hs
  · exact hP.resetNow hs

theorem KeptByUpdates.step {P : State → Prop} (hP : KeptByUpdates P) {s t : State} (hs : P s) (h : step s = .next t) :
    P t := by
  cases hin : s.input with
  | nil => rw [step_nil hin] at h; cases h; exact hs
  | cons x xs => exact hP.stimulate (hP.withInput xs hs) (step_cons hin ▸ h)

/-! ### The invariant -/

namespace State.Inv

variable {s : State}

theorem waiting_eq_none (h : s.Inv) (hs : s.sstate ≠ .handshaking) : s.waiting = none := by
  cases hw : s.waiting with
  | none => rfl
  | some ms => exact absurd (h.wait (by simp [hw])) hs

theorem consume (h : s.Inv) : s.consume.Inv := { h with }

theorem setHeader (h : s.Inv) (nm : List Byte) (size : Word32) : (s.setHeader nm size).Inv := { h with }

theorem receive (h : s.Inv) {bytes : List Byte} (hl : bytes.length ≤ Config.bufCap) : (s.receive bytes).Inv :=
  { h with buffer := Memory.overwrite_wf h.buffer hl, length := (receive_rxLen_toNat s hl).trans_le hl }

theorem transmit (h : s.Inv) {bs : List Byte} (hbs : bs ⊆ replyBytes) : (s.transmit bs).Inv :=
  { h with replies := List.forall_mem_append.mpr ⟨h.replies, hbs⟩ }

theorem call (h : s.Inv) {c : Callback} (hc : c.proper = true) : (s.call c).Inv :=
  { h with calls := List.forall_mem_append.mpr ⟨h.calls, List.forall_mem_singleton.mpr hc⟩ }

theorem beginWait (h : s.Inv) (hs : s.sstate = .handshaking) (ms : Nat) : (s.beginWait ms).Inv :=
  { h with wait := fun _ => hs }

theorem endWait (h : s.Inv) : s.endWait.Inv := { h with wait := nofun }

/-- A transition inside the metadata's window, or outside it. -/
theorem goto (h : s.Inv) (hw : s.waiting = none) {q : SState} (hq : s.sstate.inSession = q.inSession) :
    (s.goto q).Inv :=
  { h with wait := by simp [hw], metadata := h.metadata.trans hq }

/-- The transition into the metadata's window. -/
theorem openMeta_goto (h : s.Inv) (hw : s.waiting = none) : (s.openMeta.goto .receiving).Inv :=
  { h with wait := by simp [hw], metadata := rfl }

/-- The transition out of it. -/
theorem closeSession (h : s.Inv) (hw : s.waiting = none) : s.closeSession.Inv :=
  { h with wait := by simp [hw], metadata := rfl }

theorem abort (h : s.Inv) (hw : s.waiting = none) : (abort Config.params s).Inv :=
  (h.transmit (by simp [replyBytes])).closeSession hw

end State.Inv

theorem Callback.proper_acceptHeader (pay : List Byte) (size : Word32) :
    (Callback.acceptHeader (headerName pay) size).proper = true := by
  have hnul : ∀ b ∈ headerName pay, (b != Config.nul) = true := fun b hb => bne_iff_ne.mpr (headerName_no_nul hb)
  simp only [Callback.proper, headerName_length_le, decide_true, Bool.true_and, List.all_eq_true]
  exact hnul

theorem Callback.proper_acceptPayload (s : State) {n : Nat} (hn : n = Config.p128 ∨ n = Config.p1024) :
    (Callback.acceptPayload Config.hdrLen n (s.bytes Config.hdrLen n)).proper = true := by
  simp [Callback.proper, hn]

theorem State.Inv.extractHeader {s : State} (h : s.Inv) (n : Nat) : (extractHeader n s).2.Inv :=
  (h.setHeader _ _).call (Callback.proper_acceptHeader _ _)

theorem PollStep.inv {s t : State} (hstep : PollStep Config.params s t) (h : s.Inv) : t.Inv := by
  have hcrq : [Config.crq] ⊆ replyBytes := by simp [replyBytes]
  have hack : [Config.ack] ⊆ replyBytes := by simp [replyBytes]
  have hnak : [Config.nak] ⊆ replyBytes := by simp [replyBytes]
  have hackCrq : [Config.ack, Config.crq] ⊆ replyBytes := by simp [replyBytes]
  have hnone : ∀ {q}, s.sstate = q → q ≠ .handshaking → s.waiting = none := fun hs hq => h.waiting_eq_none (hs ▸ hq)
  cases hstep with
  | quiet | noUnit => exact h
  | start hs => exact h.goto (hnone hs (by decide)) ((congrArg SState.inSession hs).trans rfl)
  | request hs => exact (h.transmit hcrq).beginWait hs _
  | skip => exact h.endWait
  | waitAbort => exact h.endWait.abort rfl
  | noHeader => exact h.endWait.consume.abort rfl
  | header => exact ((h.endWait.consume.extractHeader Config.p128).transmit hackCrq).openMeta_goto rfl
  | packet n hs hd hc =>
    exact (h.consume.call (Callback.proper_acceptPayload s (hc.imp And.right And.right))).transmit hack
  | firstEnd hs => exact (h.consume.transmit hnak).goto (hnone hs (by decide)) ((congrArg SState.inSession hs).trans rfl)
  | secondEnd hs => exact (h.consume.transmit hackCrq).goto (hnone hs (by decide)) ((congrArg SState.inSession hs).trans rfl)
  | finish hs => exact ((h.consume.transmit hack).call rfl).closeSession (hnone hs (by decide))
  | noPacket hs | noSecondEnd hs | noTail hs => exact h.consume.abort (hnone hs (by decide))

theorem State.inv_resetNow (s : State) : s.resetNow.Inv where
  buffer := Memory.reset_wf
  length := Nat.zero_le _
  wait := nofun
  metadata := rfl
  replies := nofun
  calls := nofun

theorem keptByUpdates_inv : KeptByUpdates State.Inv where
  withInput _ h := { h with }
  withEnv _ h := { h with }
  emit _ h := { h with }
  setCrc _ h := { h with }
  setSessionEn _ h := { h with }
  receive _ hl h := h.receive hl
  extractHeader n h := h.extractHeader n
  poll h := (poll_step _ _).inv h
  resetNow _ := State.inv_resetNow _

/-- Settles O52: each update keeps the invariant, and each outcome of POLL is a chain of them. -/
theorem everyStepKeepsTheInvariant : Obligations.EveryStepKeepsTheInvariant := fun _ _ h hstep =>
  keptByUpdates_inv.step h hstep

/-! ### The order of the sink's calls -/

theorem sinkState_append (cb : List Callback) (c : Callback) : sinkState (cb ++ [c]) = sinkAfter (sinkState cb) c := by
  simp [sinkState]

theorem State.sinkOrdered_iff {s : State} :
    s.SinkOrdered ↔ ∃ isOpen, sinkState s.cb = some isOpen ∧ (s.sstate.inSession = true → isOpen = true) := by
  unfold State.SinkOrdered
  cases sinkState s.cb <;> simp

namespace State.SinkOrdered

variable {s t : State}

theorem sinkState_inSession (h : s.SinkOrdered) (hs : s.sstate.inSession = true) : sinkState s.cb = some true := by
  obtain ⟨isOpen, hcb, hopen⟩ := sinkOrdered_iff.mp h
  rw [hcb, hopen hs]

/-- With no call made, a session past its header is not entered. -/
theorem of_cb_eq (h : s.SinkOrdered) (hcb : t.cb = s.cb)
    (ht : t.sstate.inSession = true → s.sstate.inSession = true) : t.SinkOrdered := by
  obtain ⟨isOpen, hs, hopen⟩ := sinkOrdered_iff.mp h
  exact sinkOrdered_iff.mpr ⟨isOpen, hcb ▸ hs, fun hin => hopen (ht hin)⟩

/-- A header opens a file whatever came before it. -/
theorem of_acceptHeader (h : s.SinkOrdered) {nm : List Byte} {size : Word32}
    (hcb : t.cb = s.cb ++ [.acceptHeader nm size]) : t.SinkOrdered := by
  obtain ⟨isOpen, hs, -⟩ := sinkOrdered_iff.mp h
  refine sinkOrdered_iff.mpr ⟨true, ?_, fun _ => rfl⟩
  rw [hcb, sinkState_append, hs, sinkAfter]

theorem of_acceptPayload (h : s.SinkOrdered) (hs : s.sstate.inSession = true) {off n : Nat} {region : List Byte}
    (hcb : t.cb = s.cb ++ [.acceptPayload off n region]) : t.SinkOrdered := by
  refine sinkOrdered_iff.mpr ⟨true, ?_, fun _ => rfl⟩
  rw [hcb, sinkState_append, h.sinkState_inSession hs, sinkAfter]

theorem of_acceptEnd (h : s.SinkOrdered) (hs : s.sstate.inSession = true) (hcb : t.cb = s.cb ++ [.acceptEnd])
    (ht : t.sstate = .idle) : t.SinkOrdered := by
  refine sinkOrdered_iff.mpr ⟨false, ?_, by simp [ht, SState.inSession]⟩
  rw [hcb, sinkState_append, h.sinkState_inSession hs, sinkAfter]

end State.SinkOrdered

theorem PollStep.sinkOrdered {p : Config.Params} {s t : State} (hstep : PollStep p s t) (h : s.SinkOrdered) :
    t.SinkOrdered := by
  cases hstep with
  | quiet | noUnit => exact h
  | request | skip => exact h.of_cb_eq rfl id
  | start | waitAbort | noHeader | noPacket | noSecondEnd | noTail => exact h.of_cb_eq rfl nofun
  | firstEnd hs | secondEnd hs => exact h.of_cb_eq rfl fun _ => congrArg SState.inSession hs
  | header => exact h.of_acceptHeader rfl
  | packet n hs => exact h.of_acceptPayload (congrArg SState.inSession hs) rfl
  | finish hs => exact h.of_acceptEnd (congrArg SState.inSession hs) rfl rfl

theorem keptByUpdates_sinkOrdered : KeptByUpdates State.SinkOrdered where
  withInput _ h := h.of_cb_eq rfl id
  withEnv _ h := h.of_cb_eq rfl id
  emit _ h := h.of_cb_eq rfl id
  setCrc _ h := h.of_cb_eq rfl id
  setSessionEn _ h := h.of_cb_eq rfl id
  receive _ _ h := h.of_cb_eq rfl id
  extractHeader _ h := h.of_acceptHeader rfl
  poll h := (poll_step _ _).sinkOrdered h
  resetNow _ := nofun

/-- Settles O53: only POLL and HDRX call the sink, HDRX a header. -/
theorem everyStepKeepsTheSinkInOrder : Obligations.EveryStepKeepsTheSinkInOrder := fun _ _ h hstep =>
  keptByUpdates_sinkOrdered.step h hstep

/-! ### The transitions of `SSTATE` (R139) -/

/-- A POLL keeps `SSTATE`, or goes one state forward, or aborts. -/
theorem PollStep.sstate_cases {p : Config.Params} {s t : State} (h : PollStep p s t) :
    t.sstate = s.sstate ∨
    (s.sstate, t.sstate) ∈ [(SState.idle, SState.handshaking), (.handshaking, .receiving), (.receiving, .awaitEot2),
      (.awaitEot2, .awaitTail), (.awaitTail, .idle)] ∨
    (s.sstate, t.sstate) ∈ [(SState.awaitTail, SState.idle), (.handshaking, .idle), (.receiving, .idle),
      (.awaitEot2, .idle)] ∧ ∃ u, t = abort p u ∧ u.tx = s.tx ∧ u.cb = s.cb := by
  cases h with
  | quiet | request | skip | noUnit | packet => exact .inl rfl
  | start hs | header hs | firstEnd hs | secondEnd hs | finish hs => exact .inr (.inl (by simp [hs]))
  | waitAbort hs | noHeader hs | noPacket hs | noSecondEnd hs | noTail hs =>
    exact .inr (.inr ⟨by simp [hs], _, rfl, rfl, rfl⟩)

/-- Every other instruction leaves `SSTATE` alone. -/
theorem exec_sstate_of_ne_poll {i : Instr} {s t : State} (hi : i ≠ .poll) (h : exec i s = .next t) :
    t.sstate = s.sstate := by
  cases he : encode i with
  | unit bytes =>
    rw [exec_unit he] at h
    obtain ⟨-, -, rfl⟩ := deliver_next_iff.mp h
    rfl
  | port w =>
    cases i with
    | poll => exact absurd rfl hi
    | nop | crcClr | crcUpd _ | frame | classify | tailchk => cases h; rfl
    | crcBlk off n =>
      simp only [exec, execCrcBlk] at h
      split at h
      · cases h; rfl
      · cases h
    | hdrx =>
      cases hn : plen s.marker with
      | none => rw [exec_hdrx_refused hn] at h; cases h
      | some n => rw [exec_hdrx_of_plen hn] at h; cases h; rfl
    | eot _ | ack _ | nak _ | can _ | crq _ | abort1 _ | abort2 _ | soh _ _ _ | stx _ _ _ => simp [encode] at he

/-- A step that changes `SSTATE` is reset or a POLL. -/
theorem step_eq_poll_of_sstate_ne {s t : State} (h : step s = .next t) (hreset : s.input.head? ≠ some .reset)
    (hne : s.sstate ≠ t.sstate) :
    ∃ x xs env, s.input = x :: xs ∧ (x = .waitReturn env ∨ ∃ w, x = .op w env ∧ decode (.port w) = .ok .poll) ∧
      t = poll Config.params ((s.withInput xs).withEnv env) := by
  cases hin : s.input with
  | nil => rw [step_nil hin] at h; cases h; exact absurd rfl hne
  | cons x xs =>
    rw [step_cons hin] at h
    rcases stimulate_next h with ⟨w, env, i, rfl, -, hi, ht⟩ | ⟨env, rfl, -, rfl⟩ | ⟨bytes, rfl, -, hl, rfl⟩ | ⟨rfl, rfl⟩ |
      ⟨rfl, rfl⟩ | ⟨rfl, rfl⟩
    · by_cases hp : i = .poll
      · subst hp
        cases ht
        exact ⟨_, xs, env, rfl, .inr ⟨w, rfl, hi⟩, rfl⟩
      · exact absurd (exec_sstate_of_ne_poll hp ht).symm hne
    · exact ⟨_, xs, env, rfl, .inl rfl, rfl⟩
    · exact absurd rfl hne
    · exact absurd rfl hne
    · exact absurd rfl hne
    · exact absurd (congrArg List.head? hin) hreset

/-- Settles O37: the step is a POLL, and its change of `SSTATE` a move forward or an abort. -/
theorem transitionsAreTheTables : Obligations.TransitionsAreTheTables := by
  intro s t h hreset hne
  obtain ⟨x, xs, env, hin, hx, ht⟩ := step_eq_poll_of_sstate_ne h hreset hne
  have hpoll : ∃ x, s.input.head? = some x ∧
      ((∃ env, x = .waitReturn env) ∨ ∃ w env, x = .op w env ∧ decode (.port w) = .ok .poll) :=
    ⟨x, congrArg List.head? hin, hx.imp (⟨env, ·⟩) fun ⟨w, hw⟩ => ⟨w, env, hw⟩⟩
  have hstep : PollStep Config.params ((s.withInput xs).withEnv env) t := ht ▸ poll_step _ _
  rcases hstep.sstate_cases with hsame | hforward | ⟨haborted, u, rfl, htx, hcb⟩
  · exact absurd hsame.symm hne
  · refine ⟨List.mem_append_left _ hforward, fun hidle htail => absurd ?_ htail, hpoll⟩
    simpa [hidle] using hforward
  · exact ⟨List.mem_append_right [_, _, _, _] haborted,
      fun _ _ => ⟨(abort_tx _ _).trans (congrArg (· ++ _) htx), hcb, rfl, rfl⟩, hpoll⟩

end Sys2Proof.Machine
end

section
/-! The proof of the statement on the callbacks' results (60_exceptions.md R175, 10_state.md R38). -/

namespace Sys2Proof.Machine

/-- Of the environment's answers a POLL reads only `wait`'s: with any others beside it the same outcome is reached, and the
answers are carried along. -/
theorem PollStep.withEnv {p : Config.Params} {s t : State} (h : PollStep p s t) {e : Env}
    (he : e.waitRet = s.env.waitRet) : PollStep p (s.withEnv e) (t.withEnv e) := by
  have hv : classify (s.withEnv e) = classify s := classify_congr rfl rfl
  have ht : tailOk (s.withEnv e) = tailOk s := tailOk_congr rfl
  cases h with
  | quiet hs hen => exact .quiet hs hen
  | start hs hen => exact .start hs hen
  | request hs hw => exact .request hs hw
  | skip hs hw hr => exact .skip hs hw (he ▸ hr)
  | waitAbort hs hw hr hz => exact .waitAbort hs hw (he.trans hr) hz
  | header hs hw hr hd hc => exact .header hs hw (he.trans_ne hr) hd (hv.trans hc)
  | noHeader hs hw hr hd hc => exact .noHeader hs hw (he.trans_ne hr) hd (hv.trans_ne hc)
  | noUnit hs hd => exact .noUnit hs hd
  | packet n hs hd hc => exact .packet n hs hd (hv ▸ hc)
  | firstEnd hs hd hc => exact .firstEnd hs hd (hv.trans hc)
  | noPacket hs hd hc => exact .noPacket hs hd (hv ▸ hc)
  | secondEnd hs hd hc => exact .secondEnd hs hd (hv.trans hc)
  | noSecondEnd hs hd hc => exact .noSecondEnd hs hd (hv.trans_ne hc)
  | finish hs hd hc => exact .finish hs hd (ht.trans hc)
  | noTail hs hd hc => exact .noTail hs hd (ht.trans hc)

/-- Settles O39: each outcome of POLL is the same outcome with other callback results. -/
theorem callbackResultsDoNotBranch : Obligations.CallbackResultsDoNotBranch := fun s _ he =>
  have hstep := poll_step Config.params s
  ⟨_, hstep.exec_eq, (hstep.withEnv he).exec_eq⟩

end Sys2Proof.Machine
end

section
/-! The proofs of the statements on the decoder and the encoder (30_encoding.md). -/

namespace Sys2Proof

/-! ### Decoding an encoded instruction (R70 to R79) -/

/-- Settles O1: the length picks the format, and no two rows of a format share a byte. -/
theorem decodeOfEncodeIsTheInstruction : Obligations.DecodeOfEncodeIsTheInstruction := by
  intro i h
  cases i with
  | nop | crcClr | crcUpd _ | crcBlk _ _ | frame | classify | tailchk | hdrx | poll => rfl
  | eot extra | ack extra | nak extra | can extra | crq extra | abort1 extra | abort2 extra =>
    exact decode_short (wfControl_iff.mp h)
  | soh seq nseq body | stx seq nseq body =>
    obtain ⟨hlo, hhi⟩ := wfPacket_iff.mp h
    exact decode_long hlo hhi

/-! ### Encoding a decoded instruction -/

theorem wf_of_decodeControl {b : Byte} {extra : List Byte} {i : Instr} (h : decodeControl b extra = .ok i) :
    i.wf = wfControl extra := by
  unfold decodeControl at h
  split_ifs at h <;> cases h <;> rfl

theorem wf_of_decodePacket {b seq nseq : Byte} {body : List Byte} {i : Instr}
    (h : decodePacket b seq nseq body = .ok i) : i.wf = wfPacket body := by
  unfold decodePacket at h
  split_ifs at h <;> cases h <;> rfl

theorem wf_of_decode_unit {bytes : List Byte} {i : Instr} (h : decode (.unit bytes) = .ok i) : i.wf = true := by
  simp only [decode, decodeUnit, bufCap_eq, Config.ctrlThreshold] at h
  split_ifs at h with hlong hshort
  · split at h
    · cases h
    · rw [wf_of_decodeControl h, wfControl_iff]
      simpa [Nat.add_comm] using hshort
  · split at h
    · rw [wf_of_decodePacket h, wfPacket_iff]
      simp only [List.length_cons] at hlong hshort
      omega
    · cases h
    · cases h

theorem wf_and_encode_of_decode_port {w : PortWord} {i : Instr} (h : decode (.port w) = .ok i) :
    i.wf = true ∧ ∃ v : PortWord, encode i = .port v ∧ v.op = w.op := by
  simp only [decode, decodePort] at h
  split at h <;> cases h <;> exact ⟨rfl, _, rfl, BitVec.eq_of_toNat_eq (Eq.symm ‹_›)⟩

/-- Settles O2: what the port decodes to encodes with the same code, and by the round trip decodes again. -/
theorem encodeOfDecodeIsTheCode : Obligations.EncodeOfDecodeIsTheCode := by
  refine ⟨fun bytes i h => ⟨wf_of_decode_unit h, encode_of_decode_unit h⟩, fun w i h => ?_⟩
  obtain ⟨hwf, v, hv, hop⟩ := wf_and_encode_of_decode_port h
  exact ⟨hwf, v, hv, hop, hv ▸ decodeOfEncodeIsTheInstruction i hwf⟩

/-! ### The rows of the opcode table (R84) -/

/-- Every row compares the whole byte. -/
theorem fits_iff {r : UnitRow} (hr : r ∈ unitRows) {len : Nat} {b : Byte} :
    r.fits len b = true ↔ r.short = decide (len < 128) ∧ b = r.value := by
  have hmask : r.mask = BitVec.allOnes 8 := (by decide : ∀ r ∈ unitRows, r.mask = BitVec.allOnes 8) r hr
  rw [UnitRow.fits, hmask, BitVec.and_allOnes, Bool.and_eq_true, beq_iff_eq, beq_iff_eq]

theorem unitRows_pairwise_ne : unitRows.Pairwise fun r q => ¬ (r.short = q.short ∧ r.value = q.value) := by decide

theorem encodingFitsItsRow (i : Instr) : Laws.EncodingFitsItsRow.Statement i := by
  cases i with
  | nop => exact Laws.EncodingFitsItsRow.nop
  | crcClr => exact Laws.EncodingFitsItsRow.crcClr
  | crcUpd din => exact Laws.EncodingFitsItsRow.crcUpd din
  | crcBlk off n => exact Laws.EncodingFitsItsRow.crcBlk off n
  | frame => exact Laws.EncodingFitsItsRow.frame
  | classify => exact Laws.EncodingFitsItsRow.classify
  | tailchk => exact Laws.EncodingFitsItsRow.tailchk
  | hdrx => exact Laws.EncodingFitsItsRow.hdrx
  | poll => exact Laws.EncodingFitsItsRow.poll
  | eot extra => exact Laws.EncodingFitsItsRow.eot extra
  | ack extra => exact Laws.EncodingFitsItsRow.ack extra
  | nak extra => exact Laws.EncodingFitsItsRow.nak extra
  | can extra => exact Laws.EncodingFitsItsRow.can extra
  | crq extra => exact Laws.EncodingFitsItsRow.crq extra
  | abort1 extra => exact Laws.EncodingFitsItsRow.abort1 extra
  | abort2 extra => exact Laws.EncodingFitsItsRow.abort2 extra
  | soh seq nseq body => exact Laws.EncodingFitsItsRow.soh seq nseq body
  | stx seq nseq body => exact Laws.EncodingFitsItsRow.stx seq nseq body

/-- A unit that decodes fits the row of its instruction. -/
theorem exists_fits_of_decode_unit {b : Byte} {rest : List Byte} {i : Instr} (h : decode (.unit (b :: rest)) = .ok i) :
    ∃ r ∈ unitRows, r.fits (rest.length + 1) b = true ∧ r.mnemonic = i.mnemonic := by
  have hrow := encodingFitsItsRow i (wf_of_decode_unit h)
  rw [encode_of_decode_unit h] at hrow
  obtain ⟨-, r, hr, hm, hfits⟩ := hrow
  exact ⟨r, hr, by simpa using hfits, hm⟩

theorem decodeControl_row {r : UnitRow} (hr : r ∈ unitRows) (hs : r.short = true) (extra : List Byte) :
    ∃ i, decodeControl r.value extra = .ok i := by
  have hvalue : r.value ∈ [Config.eot, Config.ack, Config.nak, Config.can, Config.crq, Config.abort1, Config.abort2] :=
    (by decide : ∀ r ∈ unitRows, r.short = true → r.value ∈ _) r hr hs
  unfold decodeControl
  split_ifs with h1 h2 h3 h4 h5 h6 h7
  case neg => simp [h1, h2, h3, h4, h5, h6, h7] at hvalue
  all_goals exact ⟨_, rfl⟩

theorem decodePacket_row {r : UnitRow} (hr : r ∈ unitRows) (hs : r.short = false) (seq nseq : Byte) (body : List Byte) :
    ∃ i, decodePacket r.value seq nseq body = .ok i := by
  have hvalue : r.value ∈ [Config.soh, Config.stx] :=
    (by decide : ∀ r ∈ unitRows, r.short = false → r.value ∈ _) r hr hs
  unfold decodePacket
  split_ifs with h1 h2
  case neg => simp [h1, h2] at hvalue
  all_goals exact ⟨_, rfl⟩

/-- The converse of `exists_fits_of_decode_unit`: a unit that fits a row decodes. -/
theorem decode_unit_of_fits {r : UnitRow} (hr : r ∈ unitRows) {b : Byte} {rest : List Byte}
    (hfits : r.fits (rest.length + 1) b = true) (hlen : rest.length + 1 ≤ 1029) :
    ∃ i, decode (.unit (b :: rest)) = .ok i := by
  obtain ⟨hs, rfl⟩ := (fits_iff hr).mp hfits
  by_cases hshort : rest.length + 1 < 128
  · rw [decode_short (by omega)]
    exact decodeControl_row hr (by simpa [hshort] using hs) rest
  · match rest, hshort, hlen with
    | seq :: nseq :: body, hshort, hlen =>
      simp only [List.length_cons] at hshort hlen
      rw [decode_long (by omega) (by omega)]
      exact decodePacket_row hr (by simpa [hshort] using hs) seq nseq body
    | [_], hshort, _ | [], hshort, _ => simp at hshort

/-- Settles O3: two rows that a unit fits agree on the format and the byte, and are one row. -/
theorem unitDecodingFollowsTheTable : Obligations.UnitDecodingFollowsTheTable := by
  refine ⟨List.Pairwise.imp_of_mem (fun hr hq hne len b => ?_) unitRows_pairwise_ne, fun b rest hlen => ?_⟩
  · rintro ⟨hfr, hfq⟩
    obtain ⟨hrs, hrb⟩ := (fits_iff hr).mp hfr
    obtain ⟨hqs, hqb⟩ := (fits_iff hq).mp hfq
    exact hne ⟨hrs.trans hqs.symm, hrb.symm.trans hqb⟩
  · cases h : decode (.unit (b :: rest)) with
    | ok i => exact exists_fits_of_decode_unit h
    | error e =>
      refine fun r hr => Bool.eq_false_iff.mpr fun hfits => ?_
      obtain ⟨i, hi⟩ := decode_unit_of_fits hr hfits hlen
      rw [h] at hi
      cases hi

/-! ### Reserved codes, and words written out -/

theorem decode_port_reserved {w : PortWord} (h : 9 ≤ w.op.toNat) : decode (.port w) = .error (.reservedOp w.op) := by
  obtain ⟨k, hk⟩ := Nat.exists_eq_add_of_le' h
  simp only [decode, decodePort, hk]

/-- Settles O5: the short words decode by evaluation, the packet by R70's case of its length. -/
theorem sampleWordsDecode : Obligations.SampleWordsDecode := by
  have hbody : (List.replicate 130 (0 : Byte)).length = 130 := List.length_replicate
  exact ⟨rfl, rfl, rfl, rfl, decode_long (by omega) (by omega)⟩

end Sys2Proof
end

section
/-! The proofs of the statements on NOP and the CRC generator (30_encoding.md R79, 40_crc16.md). -/

namespace Sys2Proof.Machine

/-- Settles O11. -/
theorem nopChangesNothing : Obligations.NopChangesNothing := fun _ => rfl

/-- Settles O12. -/
theorem crcClrWritesTheInitialValue : Obligations.CrcClrWritesTheInitialValue := fun _ => rfl

/-! ### Runs of bit steps -/

theorem crcBits_eq_iterate (n : Nat) (t : Word16) : crcBits n t = crcBit^[n] t := by
  induction n generalizing t with
  | zero => rfl
  | succ n ih => rw [crcBits, ih, Function.iterate_succ_apply]

/-- Settles O13: the pseudocode tests bit 15 by its number, the model as the sign bit. -/
theorem crcUpdRunsTheBitLoop : Obligations.CrcUpdRunsTheBitLoop := by
  intro s din loop c
  have hloop : loop = crcBit := rfl
  have hc : crc16Update s.crc din = c := by
    rw [crc16Update, crcBits_eq_iterate, ← hloop]
  rw [← hc]
  rfl

theorem crcBits_zero (n : Nat) : crcBits n 0 = 0 := by
  induction n with
  | zero => rfl
  | succ n ih => exact ih

/-- As long as only zeros leave the register, the bit steps are a shift. -/
theorem crcBits_eq_shiftLeft {n : Nat} {t : Word16} (h : t.toNat * 2 ^ n < 2 ^ 16) : crcBits n t = t <<< n := by
  induction n generalizing t with
  | zero => rw [crcBits, BitVec.shiftLeft_zero]
  | succ n ih =>
    have htwo : t.toNat * 2 * 2 ^ n < 2 ^ 16 := by rwa [Nat.pow_succ, Nat.mul_comm (2 ^ n), ← Nat.mul_assoc] at h
    have hlt : t.toNat * 2 < 2 ^ 16 := (Nat.le_mul_of_pos_right _ (Nat.two_pow_pos n)).trans_lt htwo
    have hmsb : t.msb = false := by rw [BitVec.msb_eq_false_iff_two_mul_lt]; omega
    have hone : (t <<< 1).toNat = t.toNat * 2 := by rw [BitVec.toNat_shiftLeft, Nat.shiftLeft_eq, Nat.mod_eq_of_lt hlt]
    have hbit : crcBit t = t <<< 1 := by simp [crcBit, hmsb]
    rw [crcBits, hbit, ih (hone ▸ htwo), ← BitVec.shiftLeft_add, Nat.add_comm]

/-- The eight bit steps of a byte in the register's low half. -/
theorem crcBits_byte (b : Byte) : crcBits 8 (b.setWidth 16) = b.setWidth 16 <<< 8 := by
  apply crcBits_eq_shiftLeft
  rw [BitVec.toNat_setWidth_of_le (by decide)]
  omega

/-! ### The update, linear (R96) and a byte at a time (R90) -/

theorem crc16Update_xor (c₁ c₂ : Word16) (b₁ b₂ : Byte) :
    crc16Update (c₁ ^^^ c₂) (b₁ ^^^ b₂) = crc16Update c₁ b₁ ^^^ crc16Update c₂ b₂ := by
  rw [crc16Update, crc16Update, crc16Update, ← crcBits_xor, BitVec.setWidth_xor, BitVec.shiftLeft_xor_distrib]
  ac_rfl

/-- A register whose high byte is `b`, but for the low byte. -/
theorem xor_byte_shiftLeft (c : Word16) (b : Byte) :
    c ^^^ (b.setWidth 16 <<< 8) = (((c >>> 8).setWidth 8 ^^^ b).setWidth 16 <<< 8) ^^^ (c.setWidth 8).setWidth 16 := by
  ext i hi
  by_cases h : i < 8
  · simp [h, BitVec.getLsbD_eq_getElem hi]
  · have hsub : 8 + (i - 8) = i := by omega
    have hlt : i - 8 < 8 := by omega
    simp [h, hsub, hlt, BitVec.getLsbD_eq_getElem hi]

theorem byte_shiftLeft (c : Word16) : (c.setWidth 8).setWidth 16 <<< 8 = c <<< 8 := by
  ext i hi
  by_cases h : i < 8
  · simp [h]
  · have hlt : i - 8 < 8 := by omega
    simp [h, hlt, BitVec.getLsbD_eq_getElem (show i - 8 < 16 by omega)]

/-- The table's step: the low byte moves up, and the entry of the high byte's sum with the new one is XORed in. -/
theorem crc16Update_eq_table (c : Word16) (b : Byte) :
    crc16Update c b = (c <<< 8) ^^^ crc16Update 0 ((c >>> 8).setWidth 8 ^^^ b) := by
  rw [crc16Update, xor_byte_shiftLeft, crcBits_xor, crcBits_byte, byte_shiftLeft, BitVec.xor_comm]
  simp [crc16Update]

/-! ### The properties of R96 -/

theorem crc16_eq_foldl (bytes : List Byte) : crc16 bytes = bytes.foldl crc16Update 0 :=
  crc16From_eq_foldl bytes _

theorem crc16_append (s₁ s₂ : List Byte) : crc16 (s₁ ++ s₂) = s₂.foldl crc16Update (crc16 s₁) := by
  rw [crc16_eq_foldl, crc16_eq_foldl, List.foldl_append]

theorem crc16Update_zero_zero : crc16Update 0 0 = 0 := crcBits_zero 8

theorem crc16_cons_zero (s : List Byte) : crc16 (0 :: s) = crc16 s := by
  rw [crc16_eq_foldl, crc16_eq_foldl, List.foldl_cons, crc16Update_zero_zero]

theorem crc16_replicate_zero (k : Nat) : crc16 (List.replicate k 0) = 0 := by
  induction k with
  | zero => rfl
  | succ k ih => rw [List.replicate_succ, crc16_cons_zero, ih]

/-- The register's own high byte empties it, but for the low byte moved up. -/
theorem crc16Update_high_byte (c : Word16) : crc16Update c (c.extractLsb' 8 8) = c <<< 8 := by
  have hhigh : (c >>> 8).setWidth 8 = c.extractLsb' 8 8 := by
    ext i hi
    simp
  rw [crc16Update_eq_table, hhigh, BitVec.xor_self]
  exact BitVec.xor_zero

theorem crc16Update_high_low (c : Word16) :
    crc16Update (crc16Update c (c.extractLsb' 8 8)) (c.extractLsb' 0 8) = 0 := by
  have hlow : c.extractLsb' 0 8 = (c <<< 8).extractLsb' 8 8 := by
    ext i hi
    simp [show 8 + i < 16 by omega, BitVec.getLsbD_eq_getElem (show i < 16 by omega)]
  rw [crc16Update_high_byte, hlow, crc16Update_high_byte, ← BitVec.shiftLeft_add]
  exact BitVec.shiftLeft_eq_zero le_rfl

theorem crc16_append_crc16 (s : List Byte) : crc16 (s ++ [(crc16 s).extractLsb' 8 8, (crc16 s).extractLsb' 0 8]) = 0 := by
  rw [crc16_append]
  exact crc16Update_high_low (crc16 s)

/-- Settles O15: the five table entries by evaluation, the others by the laws above. -/
theorem crcPropertiesHold : Obligations.CrcPropertiesHold :=
  ⟨⟨crc16Update_zero_zero, crc16_replicate_zero⟩, by decide, crc16Update_xor, crc16_append_crc16, crc16_cons_zero,
    crc16_append⟩

/-! ### The other formulations (R90) -/

theorem crc16Table_eq_crc16 (bytes : List Byte) : crc16Table bytes = crc16 bytes := by
  have hstep : (fun (c : Word16) (b : Byte) => (c <<< 8) ^^^ crc16Update 0 ((c >>> 8).setWidth 8 ^^^ b)) = crc16Update :=
    funext₂ fun c b => (crc16Update_eq_table c b).symm
  rw [crc16Table, hstep, crc16_eq_foldl]
  rfl

/-- A bit that enters from the right is XORed into the shifted register. -/
theorem shiftIn_eq (r : Word16) (bit : Bool) : shiftIn r bit = crcBit r ^^^ (BitVec.ofBool bit).setWidth 16 := by
  have hor : (r <<< 1) ||| (BitVec.ofBool bit).setWidth 16 = (r <<< 1) ^^^ (BitVec.ofBool bit).setWidth 16 := by
    ext i hi
    by_cases h : i = 0
    · simp [h]
    · simp [h]
  rw [shiftIn, hor, crcBit_eq]
  cases r.msb with
  | false => simp
  | true =>
    simp only [if_true]
    ac_rfl

theorem foldl_shiftIn_xor (bits : List Bool) (r x : Word16) :
    bits.foldl shiftIn (r ^^^ x) = crcBits bits.length r ^^^ bits.foldl shiftIn x := by
  induction bits generalizing r x with
  | nil => rfl
  | cons bit bits ih =>
    rw [List.foldl_cons, List.foldl_cons, List.length_cons, crcBits, ← ih, shiftIn_eq, shiftIn_eq, crcBit_xor,
      BitVec.xor_assoc]

theorem shiftIn_ushiftRight (b : Byte) (k : Nat) :
    shiftIn (b.setWidth 16 >>> (k + 1)) (b.getLsbD k) = b.setWidth 16 >>> k := by
  have hmsb : (b.setWidth 16 >>> (k + 1)).msb = false := by simp [BitVec.msb_ushiftRight]
  simp only [shiftIn, hmsb, Bool.false_eq_true, if_false]
  ext i hi
  by_cases h : i = 0
  · simpa [h] using fun hbit => (BitVec.lt_of_getLsbD hbit).trans (by decide)
  · have hidx : k + 1 + (i - 1) = k + i := by omega
    simp [h, hidx]

/-- The bits of `b` below `k` bring in what of `b` is not yet in the register. -/
theorem foldl_shiftIn_ushiftRight (b : Byte) (k : Nat) :
    ((List.range k).reverse.map b.getLsbD).foldl shiftIn (b.setWidth 16 >>> k) = b.setWidth 16 := by
  induction k with
  | zero => exact BitVec.ushiftRight_zero _
  | succ k ih =>
    rw [List.range_succ, List.reverse_concat, List.map_cons, List.foldl_cons, shiftIn_ushiftRight, ih]

theorem shiftInByte_eq (r : Word16) (b : Byte) : shiftInByte r b = crcBits 8 r ^^^ b.setWidth 16 := by
  have hbits : shiftInByte r b = ((List.range 8).reverse.map b.getLsbD).foldl shiftIn r := List.foldl_map.symm
  have hempty : b.setWidth 16 >>> 8 = 0 := by
    ext i hi
    simp
  have hlow := foldl_shiftIn_ushiftRight b 8
  have hsum := foldl_shiftIn_xor ((List.range 8).reverse.map b.getLsbD) r (b.setWidth 16 >>> 8)
  rw [hlow, hempty] at hsum
  rw [hbits]
  simpa using hsum

theorem crcBits_shiftInByte (r : Word16) (b : Byte) :
    crcBits 16 (shiftInByte r b) = crc16Update (crcBits 16 r) b := by
  rw [shiftInByte_eq, crc16Update, crcBits_xor, crcBits_xor, ← crcBits_add, ← crcBits_add, ← crcBits_byte, ← crcBits_add]

theorem crcBits_foldl_shiftInByte (bytes : List Byte) (r : Word16) :
    crcBits 16 (bytes.foldl shiftInByte r) = bytes.foldl crc16Update (crcBits 16 r) := by
  induction bytes generalizing r with
  | nil => rfl
  | cons b bytes ih => rw [List.foldl_cons, List.foldl_cons, ih, crcBits_shiftInByte]

theorem shiftInByte_zero (r : Word16) : shiftInByte r 0 = crcBits 8 r := by
  rw [shiftInByte_eq]
  exact BitVec.xor_zero

/-- The two appended zero bytes are the sixteen bit steps by which the register lags. -/
theorem crc16Appended_eq_crc16 (bytes : List Byte) : crc16Appended bytes = crc16 bytes := by
  have hinit : crcBits 16 Config.crcInit = 0 := crcBits_zero 16
  rw [crc16Appended, List.foldl_append, List.foldl_cons, List.foldl_cons, List.foldl_nil, shiftInByte_zero,
    shiftInByte_zero, ← crcBits_add, crcBits_foldl_shiftInByte, hinit, crc16_eq_foldl]

/-- Settles O16. -/
theorem crcFormulationsAgree : Obligations.CrcFormulationsAgree := fun bytes =>
  ⟨crc16Table_eq_crc16 bytes, crc16Appended_eq_crc16 bytes⟩

/-! ### CRC.BLK (R94) -/

theorem State.bytes_eq_map_range (s : State) (off n : Nat) :
    s.bytes off n = (List.range n).map fun i => s.byte (off + i) := by
  rw [State.bytes_eq, List.range'_eq_map_range, List.map_map]
  rfl

theorem exec_crcBlk {off n : Word11} (h : off.toNat + n.toNat ≤ 1029) (s : State) {c : Word16}
    (hc : crc16 (s.bytes off.toNat n.toNat) = c) :
    exec (.crcBlk off n) s = .next { s with crc := c, results := s.results ++ [.crc c] } := by
  have hin : blockInBuffer off n = true := decide_eq_true h
  rw [exec, execCrcBlk, if_pos hin, hc]
  rfl

/-- Settles O14. -/
theorem crcBlkSumsTheRegion : Obligations.CrcBlkSumsTheRegion := by
  refine fun s off n => ⟨fun h => exec_crcBlk h s (by rw [State.bytes_eq_map_range]), fun h => ?_⟩
  have hout : ¬ blockInBuffer off n = true := by simpa [blockInBuffer, bufCap_eq] using h
  rw [exec, execCrcBlk, if_neg hout]

theorem State.bytes_payload_trailer (s : State) (n : Nat) :
    s.bytes 3 (n + 2) = s.payload n ++ [s.byte (3 + n), s.byte (3 + n + 1)] := by
  rw [State.payload, State.bytes_eq, State.bytes_eq, ← List.range'_append_1, List.map_append]
  rfl

/-- The trailer of a packet is its payload's CRC, high byte first, so the two together sum to 0. -/
theorem crc16_payload_trailer {s : State} {n : Nat} (h : s.crcOk n = true) : crc16 (s.bytes 3 (n + 2)) = 0 := by
  have hcrc : crc16 (s.payload n) = s.byte (3 + n) ++ s.byte (3 + n + 1) := (crcOk_iff s n).mp h
  have hhigh : (crc16 (s.payload n)).extractLsb' 8 8 = s.byte (3 + n) := by
    rw [hcrc]; exact BitVec.extractLsb'_append_eq_left
  have hlow : (crc16 (s.payload n)).extractLsb' 0 8 = s.byte (3 + n + 1) := by
    rw [hcrc]; exact BitVec.extractLsb'_append_eq_right
  rw [State.bytes_payload_trailer, ← hhigh, ← hlow, crc16_append_crc16]

/-- Settles O47: the region is a valid packet's payload and trailer. -/
theorem crcBlkOfAValidPacketIsZero : Obligations.CrcBlkOfAValidPacketIsZero := by
  refine fun s => ⟨fun h => ?_, fun h => ?_⟩
  · obtain ⟨-, -, -, hcrc⟩ := classify_eq_pkt128.mp h
    exact exec_crcBlk (by decide) s (crc16_payload_trailer hcrc)
  · obtain ⟨-, -, -, hcrc⟩ := classify_eq_pkt1024.mp h
    exact exec_crcBlk (by decide) s (crc16_payload_trailer hcrc)

end Sys2Proof.Machine
end

section
/-! The proofs of the statements on the frame parser, the sequence pair, and what the classifier makes of a delivered unit
(41_classifier.md, 20_memory.md R57 to R59). -/

namespace Sys2Proof.Machine

/-! ### The frame's fields (R100, R101) -/

theorem exec_frame (s : State) : exec .frame s = .next (s.emit (frameFields s)) := rfl

theorem frameFields_of_plen {s : State} {n : Nat} (h : plen s.marker = some n) :
    frameFields s = .frame (s.byte 0) (s.byte 1) (s.byte 2) (BitVec.ofNat 11 n) (s.rxcrc n) := by
  simp only [frameFields, h]
  rfl

theorem frameFields_of_no_marker {s : State} (h : plen s.marker = none) :
    frameFields s = .frame (s.byte 0) (s.byte 1) (s.byte 2) 0 0 := by
  simp only [frameFields, h]
  rfl

/-- Settles O17: `plen` tells the two markers and the other bytes apart. -/
theorem frameReturnsTheFields : Obligations.FrameReturnsTheFields := by
  intro s
  have hne : Config.soh ≠ Config.stx := by decide
  cases h : plen s.marker with
  | none =>
    obtain ⟨hsoh, hstx⟩ := plen_none.mp h
    refine ⟨0, 0, ?_, fun h0 => absurd h0 hsoh, fun h0 => absurd h0 hstx, fun _ _ => ⟨rfl, rfl⟩⟩
    rw [exec_frame, frameFields_of_no_marker h]
    rfl
  | some n =>
    refine ⟨BitVec.ofNat 11 n, s.rxcrc n, ?_, ?_⟩
    · rw [exec_frame, frameFields_of_plen h]
      rfl
    · rcases plen_some.mp h with ⟨hmark, rfl⟩ | ⟨hmark, rfl⟩
      · exact ⟨fun _ => ⟨rfl, s.rxcrc_toNat 128⟩, fun h0 => absurd (hmark.symm.trans h0) hne, fun h0 => absurd hmark h0⟩
      · exact ⟨fun h0 => absurd (h0.symm.trans hmark) hne, fun _ => ⟨rfl, s.rxcrc_toNat 1024⟩, fun _ h0 => absurd hmark h0⟩

/-! ### The forms of the sequence-pair test (R102) -/

theorem eq_not_iff_toNat_add {a b : Byte} : b = ~~~a ↔ a.toNat + b.toNat = 255 := by
  rw [← BitVec.toNat_inj, BitVec.toNat_not]
  omega

theorem xor_eq_allOnes_iff {a b : Byte} : a ^^^ b = 0xFF ↔ b = ~~~a := by
  have hallOnes : (0xFF : Byte) = BitVec.allOnes 8 := rfl
  have hcancel : ∀ c : Byte, a ^^^ (a ^^^ c) = c := fun c => by rw [← BitVec.xor_assoc, BitVec.xor_self, BitVec.zero_xor]
  rw [hallOnes, ← BitVec.xor_allOnes]
  constructor
  · intro h
    rw [← h, hcancel]
  · rintro rfl
    exact hcancel _

/-- Settles O21: each form is the sum of `seqOk_iff`. -/
theorem sequencePairFormsAgree : Obligations.SequencePairFormsAgree := by
  intro s
  have hsum : s.seqOk = true ↔ (s.byte 1).toNat + (s.byte 2).toNat = 255 := seqOk_iff s
  have hnot : s.seqOk = true ↔ s.byte 2 = ~~~ s.byte 1 := hsum.trans eq_not_iff_toNat_add.symm
  exact ⟨hsum, hsum.trans (by omega), hnot, hnot.trans xor_eq_allOnes_iff.symm⟩

/-! ### Deliveries (20_memory.md R57, R59) -/

/-- A well-formed unit fits in the buffer (30_encoding.md R70). -/
theorem length_le_of_wf {i : Instr} {bytes : List Byte} (h : encode i = .unit bytes) (hwf : i.wf = true) :
    bytes.length ≤ Config.bufCap := by
  have hrow := encodingFitsItsRow i hwf
  rw [h] at hrow
  exact hrow.1

theorem exec_unit_receive {i : Instr} {bytes : List Byte} (h : encode i = .unit bytes) {s : State}
    (hd : s.dataReady = false) (hl : bytes.length ≤ Config.bufCap) : exec i s = .next (s.receive bytes) :=
  (exec_unit h s).trans (deliver_next hd hl)

/-- Settles O41: a unit instruction is its unit's delivery. -/
theorem deliveryWritesTheUnit : Obligations.DeliveryWritesTheUnit := by
  intro i bytes s h hwf hd
  have hl := length_le_of_wf h hwf
  exact ⟨s.receive bytes, exec_unit_receive h hd hl, rfl, receive_rxLen_toNat s hl, s.receive_byte bytes⟩

theorem classify_receive_short (s : State) {b : Byte} {extra : List Byte} (h : 1 + extra.length < 128) :
    classify (s.receive (b :: extra)) = classifyShort b := by
  have hl : (b :: extra).length < 128 := by rwa [List.length_cons, Nat.add_comm]
  have hb : (s.receive (b :: extra)).marker = b := s.receive_byte_lt (b :: extra) (Nat.zero_lt_succ _)
  rw [classify_short, hb]
  rwa [receive_rxLen_toNat s (hl.le.trans (by decide))]

/-- Settles O43: the verdict is `classifyShort` of the control byte. -/
theorem controlUnitsClassifyAsTheirRows : Obligations.ControlUnitsClassifyAsTheirRows := by
  intro s extra h hd reads
  have hreads {i : Instr} {b : Byte} {v : Verdict} (hi : encode i = .unit (b :: extra)) (hv : classifyShort b = v) :
      reads i v := by
    have hl : (b :: extra).length ≤ Config.bufCap := by simp only [List.length_cons, bufCap_eq]; omega
    exact ⟨_, exec_unit_receive hi hd hl, (classify_receive_short s h).trans hv⟩
  exact ⟨hreads rfl rfl, hreads rfl rfl, hreads rfl rfl, hreads rfl rfl, hreads rfl rfl, hreads rfl rfl, hreads rfl rfl⟩

/-! ### A whole packet over any buffer (30_encoding.md R72, R73, R106) -/

/-- A packet as it is delivered: marker, pair, payload, trailer. -/
def packetUnit (m seq nseq hi lo : Byte) (pay : List Byte) : List Byte := m :: seq :: nseq :: (pay ++ [hi, lo])

section
variable (s : State) (m seq nseq hi lo : Byte) (pay : List Byte)

theorem packetUnit_length : (packetUnit m seq nseq hi lo pay).length = pay.length + 5 := by
  simp [packetUnit]

theorem receive_packetUnit_marker : (s.receive (packetUnit m seq nseq hi lo pay)).marker = m :=
  s.receive_byte_lt (packetUnit m seq nseq hi lo pay) (by simp [packetUnit])

theorem receive_packetUnit_seq : (s.receive (packetUnit m seq nseq hi lo pay)).seq = seq :=
  s.receive_byte_lt (packetUnit m seq nseq hi lo pay) (by simp [packetUnit])

theorem receive_packetUnit_nseq : (s.receive (packetUnit m seq nseq hi lo pay)).nseq = nseq :=
  s.receive_byte_lt (packetUnit m seq nseq hi lo pay) (by simp [packetUnit])

theorem receive_packetUnit_payload : (s.receive (packetUnit m seq nseq hi lo pay)).payload pay.length = pay := by
  refine List.ext_getElem (State.bytes_length _ _ _) fun i _ h => ?_
  have hin : 3 + i < (packetUnit m seq nseq hi lo pay).length := by rw [packetUnit_length]; omega
  simp only [State.payload, State.bytes_getElem, State.receive_byte_lt _ _ hin]
  simp [packetUnit, h, Nat.add_comm 3]

theorem receive_packetUnit_rxcrc : (s.receive (packetUnit m seq nseq hi lo pay)).rxcrc pay.length = hi ++ lo := by
  have hhi : 3 + pay.length < (packetUnit m seq nseq hi lo pay).length := by rw [packetUnit_length]; omega
  have hlo : 3 + pay.length + 1 < (packetUnit m seq nseq hi lo pay).length := by rw [packetUnit_length]; omega
  rw [State.rxcrc, State.receive_byte_lt _ _ hhi, State.receive_byte_lt _ _ hlo]
  simp [packetUnit, Nat.add_comm 3]

/-- The two tests on a delivered packet are tests on its own parts. -/
theorem receive_packetUnit_tests :
    ((s.receive (packetUnit m seq nseq hi lo pay)).seqOk && (s.receive (packetUnit m seq nseq hi lo pay)).crcOk pay.length)
      = true ↔ seq.toNat + nseq.toNat = 255 ∧ (crc16 pay).toNat = 256 * hi.toNat + lo.toNat := by
  rw [Bool.and_eq_true, seqOk_iff, crcOk_iff, receive_packetUnit_seq, receive_packetUnit_nseq,
    receive_packetUnit_payload, receive_packetUnit_rxcrc, ← BitVec.toNat_inj, toNat_append_bytes]

end

/-- The common part of the two packets: `v` is the verdict of the marker where both tests are passed. -/
theorem exec_packet {i : Instr} {s : State} {m seq nseq hi lo : Byte} {pay : List Byte} {v : Verdict}
    (he : encode i = .unit (packetUnit m seq nseq hi lo pay)) (hd : s.dataReady = false)
    (hmin : 128 ≤ pay.length + 5) (hmax : pay.length + 5 ≤ 1029)
    (hv : ∀ t : State, t.marker = m → classifyLong t = if t.seqOk && t.crcOk pay.length then v else .invalid) :
    ∃ t, exec i s = .next t ∧
      (seq.toNat + nseq.toNat = 255 ∧ (crc16 pay).toNat = 256 * hi.toNat + lo.toNat → classify t = v) ∧
      (¬ (seq.toNat + nseq.toNat = 255 ∧ (crc16 pay).toNat = 256 * hi.toNat + lo.toNat) → classify t = .invalid) := by
  have hlen := packetUnit_length m seq nseq hi lo pay
  have hfits : (packetUnit m seq nseq hi lo pay).length ≤ Config.bufCap := hlen.trans_le hmax
  have hlong : 128 ≤ (s.receive (packetUnit m seq nseq hi lo pay)).rxLen.toNat := by
    rwa [receive_rxLen_toNat s hfits, hlen]
  have hclass := (classify_long hlong).trans (hv _ (receive_packetUnit_marker s m seq nseq hi lo pay))
  have htests := receive_packetUnit_tests s m seq nseq hi lo pay
  exact ⟨_, exec_unit_receive he hd hfits, fun h => hclass.trans (if_pos (htests.mpr h)),
    fun h => hclass.trans (if_neg (mt htests.mp h))⟩

/-- Settles O44. -/
theorem wholePacketsAreAcceptedWhenIntact : Obligations.WholePacketsAreAcceptedWhenIntact := by
  refine fun s seq nseq hi lo pay hd => ⟨fun hlen => ?_, fun hlen => ?_⟩
  · exact exec_packet rfl hd (by omega) (by omega) fun t ht => hlen ▸ classifyLong_soh ht
  · exact exec_packet rfl hd (by omega) (by omega) fun t ht => hlen ▸ classifyLong_stx ht

/-! ### A packet cut short (30_encoding.md R82, the spec's decision D14) -/

theorem receive_take_byte {s : State} {bytes : List Byte} {k : Nat} (hk : k ≤ bytes.length)
    (hstale : ∀ a (h : a < bytes.length), k ≤ a → s.byte a = bytes[a]) (a : Nat) :
    (s.receive (bytes.take k)).byte a = (s.receive bytes).byte a := by
  have htake : (bytes.take k).length = k := List.length_take_of_le hk
  by_cases hak : a < k
  · rw [State.receive_byte_lt s _ (htake.symm ▸ hak), State.receive_byte_lt s _ (hak.trans_le hk), List.getElem_take]
  · rw [State.receive_byte_ge s _ (htake.trans_le (Nat.not_lt.mp hak))]
    by_cases hal : a < bytes.length
    · rw [State.receive_byte_lt s _ hal, hstale a hal (Nat.not_lt.mp hak)]
    · rw [State.receive_byte_ge s _ (Nat.not_lt.mp hal)]

/-- Settles O45: both deliveries take the classifier's long branch, over the same bytes. -/
theorem staleBytesCompleteAShortPacket : Obligations.StaleBytesCompleteAShortPacket := by
  intro s bytes k hd hmin hk hmax hstale
  have htake : (bytes.take k).length = k := List.length_take_of_le hk
  have hfits : (bytes.take k).length ≤ Config.bufCap := htake.trans_le (hk.trans hmax)
  have ht : (s.receive (bytes.take k)).rxLen.toNat = k := (receive_rxLen_toNat s hfits).trans htake
  have hu : (s.receive bytes).rxLen.toNat = bytes.length := receive_rxLen_toNat s hmax
  have hbytes := receive_take_byte hk hstale
  refine ⟨_, _, deliver_next hd hfits, deliver_next hd hmax, ht, hbytes, ?_⟩
  rw [classify_long (hmin.trans_eq ht.symm), classify_long ((hmin.trans hk).trans_eq hu.symm)]
  exact classifyLong_congr_bytes (hbytes 0) (fun _ a _ => hbytes a) (fun _ a _ => hbytes a)

/-! ### The classifier and the tail check (41_classifier.md R112) -/

theorem tailOk_of_classify_eq_pkt1024 {s : State} (h : classify s = .pkt1024) : tailOk s = false := by
  obtain ⟨-, hmark, -, -⟩ := classify_eq_pkt1024.mp h
  have hne : Config.stx ≠ Config.soh := by decide
  exact Bool.eq_false_iff.mpr fun ht => hne (hmark.symm.trans ((tailOk_iff s).mp ht).1)

/-- Settles O23: the tail check passes a lone marker and pair, which is no unit of three bytes, and fails an intact long
packet of zeros. -/
theorem tailAndClassifierDisagree : Obligations.TailAndClassifierDisagree := by
  constructor
  · exact ⟨State.reset.receive [Config.soh, 0x00, 0xFF], by decide, classify_receive_short State.reset (by decide)⟩
  · have hpay : (List.replicate 1024 (0 : Byte)).length = 1024 := List.length_replicate
    obtain ⟨t, -, hintact, -⟩ :=
      (wholePacketsAreAcceptedWhenIntact State.reset 0x01 0xFE 0x00 0x00 (List.replicate 1024 0) rfl).2 hpay
    have ht : classify t = .pkt1024 := hintact ⟨rfl, by rw [crc16_replicate_zero]; rfl⟩
    exact ⟨t, tailOk_of_classify_eq_pkt1024 ht, ht⟩

end Sys2Proof.Machine
end

section
/-! The proofs of the statements on the step and on reset (30_encoding.md section 9, 70_reset_and_hazards.md). -/

namespace Sys2Proof.Machine

/-! ### One equation per stimulus -/

section
variable {s : State} {rest : List Stimulus}

theorem step_op {w : PortWord} {env : Env} {i : Instr} (h : s.input = .op w env :: rest) (hw : s.waiting = none)
    (hi : decode (.port w) = .ok i) : step s = exec i ((s.withInput rest).withEnv env) := by
  simp [step_cons h, stimulate, issue, hw, hi]

theorem step_op_error {w : PortWord} {env : Env} {e : DecodeError} (h : s.input = .op w env :: rest)
    (hw : s.waiting = none) (he : decode (.port w) = .error e) : step s = .refused (.reservedOp w.op) := by
  simp [step_cons h, stimulate, issue, hw, he]

theorem step_op_waiting {w : PortWord} {env : Env} (h : s.input = .op w env :: rest) (hw : s.waiting.isSome = true) :
    step s = .refused .operationInProgress := by
  simp [step_cons h, stimulate, issue, hw]

theorem step_waitReturn {env : Env} (h : s.input = .waitReturn env :: rest) (hw : s.waiting.isSome = true) :
    step s = exec .poll ((s.withInput rest).withEnv env) := by
  simp [step_cons h, stimulate, resume, hw]

theorem step_waitReturn_none {env : Env} (h : s.input = .waitReturn env :: rest) (hw : s.waiting = none) :
    step s = .refused .noWaitInProgress := by
  simp [step_cons h, stimulate, resume, hw]

theorem step_rx {bytes : List Byte} (h : s.input = .rx bytes :: rest) : step s = deliver bytes (s.withInput rest) :=
  (step_cons h).trans (arrive_eq bytes _)

theorem step_rx_receive {bytes : List Byte} (h : s.input = .rx bytes :: rest) (hd : s.dataReady = false)
    (hl : bytes.length ≤ Config.bufCap) : step s = .next ((s.withInput rest).receive bytes) :=
  (step_rx h).trans (deliver_next hd hl)

theorem step_enable (h : s.input = .enable :: rest) : step s = .next ((s.withInput rest).setSessionEn true) := step_cons h

theorem step_disable (h : s.input = .disable :: rest) : step s = .next ((s.withInput rest).setSessionEn false) := step_cons h

theorem step_reset (h : s.input = .reset :: rest) : step s = .next (s.withInput rest).resetNow := step_cons h

end

/-- Settles O4. -/
theorem reservedCodesAreRefused : Obligations.ReservedCodesAreRefused := fun _ _ _ _ hop hw h =>
  ⟨decode_port_reserved hop, step_op_error h hw (decode_port_reserved hop)⟩

/-- Settles O6. -/
theorem stepRunsTheDecodedInstruction : Obligations.StepRunsTheDecodedInstruction :=
  ⟨fun _ _ _ _ _ h hw hi => step_op h hw hi,
    fun _ _ _ _ h hi => (step_rx h).trans (exec_unit (encode_of_decode_unit hi) _).symm⟩

/-- Settles O7. -/
theorem stepOfTheOtherStimuli : Obligations.StepOfTheOtherStimuli :=
  ⟨fun _ h => step_nil h, fun _ _ h => step_enable h, fun _ _ h => step_disable h, fun _ _ _ h hw => step_waitReturn h hw,
    fun _ _ _ h hw => step_waitReturn_none h hw, fun _ _ _ _ h hw => step_op_waiting h hw,
    fun s bytes rest _ h _ hd hl => ⟨_, step_rx_receive h hd hl, rfl, receive_rxLen_toNat _ hl,
      (s.withInput rest).receive_byte bytes⟩⟩

/-! ### When a step goes on -/

theorem deliver_next_iff_allowed {bytes : List Byte} {s : State} :
    (∃ t, deliver bytes s = .next t) ↔ (!s.dataReady && decide (bytes.length ≤ Config.bufCap)) = true := by
  simp [deliver_next_iff]

theorem exec_next_iff_allowed {i : Instr} {s : State} : (∃ t, exec i s = .next t) ↔ instrAllowed i s = true := by
  cases i with
  | nop | crcClr | crcUpd _ | frame | classify | tailchk | poll => exact iff_of_true ⟨_, rfl⟩ rfl
  | crcBlk off n => cases h : blockInBuffer off n <;> simp [exec, execCrcBlk, instrAllowed, h]
  | hdrx =>
    cases h : plen s.marker with
    | none => simp [exec_hdrx_refused h, instrAllowed, h]
    | some n => simp [exec_hdrx_of_plen h, instrAllowed, h]
  | eot extra | ack extra | nak extra | can extra | crq extra | abort1 extra | abort2 extra =>
    rw [exec_unit rfl, deliver_next_iff_allowed, List.length_cons, Nat.add_comm, instrAllowed]
  | soh seq nseq body | stx seq nseq body =>
    rw [exec_unit rfl, deliver_next_iff_allowed, instrAllowed, Nat.add_comm Config.hdrLen]
    exact Iff.rfl

theorem instrAllowed_withInput_withEnv (i : Instr) (s : State) (xs : List Stimulus) (env : Env) :
    instrAllowed i ((s.withInput xs).withEnv env) = instrAllowed i s := by
  cases i <;> rfl

/-- Settles O8: each stimulus goes on exactly when it is allowed. -/
theorem stepGoesOnExactlyWhenSafe : Obligations.StepGoesOnExactlyWhenSafe := by
  intro s
  rw [State.safe.eq_def]
  cases h : s.input with
  | nil => exact iff_of_true ⟨s, step_nil h⟩ rfl
  | cons x rest =>
    cases x with
    | op w env =>
      cases hw : s.waiting with
      | some ms => simp [step_op_waiting h (by simp [hw]), Stimulus.allowed, hw]
      | none =>
        cases hi : decode (.port w) with
        | ok i =>
          rw [step_op h hw hi, exec_next_iff_allowed, instrAllowed_withInput_withEnv]
          simp [Stimulus.allowed, hw, hi]
        | error e => simp [step_op_error h hw hi, Stimulus.allowed, hi]
    | waitReturn env =>
      cases hw : s.waiting with
      | none => simp [step_waitReturn_none h hw, Stimulus.allowed, hw]
      | some ms =>
        have hsome : s.waiting.isSome = true := by simp [hw]
        exact iff_of_true ⟨_, step_waitReturn h hsome⟩ hsome
    | rx bytes => rw [step_rx h]; exact deliver_next_iff_allowed
    | enable => exact iff_of_true ⟨_, step_enable h⟩ rfl
    | disable => exact iff_of_true ⟨_, step_disable h⟩ rfl
    | reset => exact iff_of_true ⟨_, step_reset h⟩ rfl

/-! ### Reset (10_state.md R41, 70_reset_and_hazards.md R180, R181) -/

/-- Settles O9. -/
theorem resetLeavesTheGivenValues : Obligations.ResetLeavesTheGivenValues :=
  ⟨rfl, rfl, rfl, rfl, rfl, rfl, rfl, rfl⟩

/-- Settles O10: the state after reset is Idle and disabled, so its POLL is quiet. -/
theorem resetAtAnyTimeMakesPollQuiet : Obligations.ResetAtAnyTimeMakesPollQuiet := fun _ _ h =>
  ⟨_, step_reset h, rfl, rfl, rfl, rfl, rfl, rfl, rfl, rfl, rfl, rfl, (PollStep.quiet rfl rfl).exec_eq⟩

/-- Settles O51: `State.reset` is its own reset, and has made no call. -/
theorem resetKeepsTheInvariant : Obligations.ResetKeepsTheInvariant :=
  ⟨State.reset.inv_resetNow, nofun⟩

/-! ### A delivery and the POLL after it -/

/-- A unit that is invalid to the classifier and to the tail check aborts in every session state (60_exceptions.md R164). -/
theorem PollStep.abort_of_invalid (p : Config.Params) {s : State} (hs : s.sstate ≠ .idle)
    (hwait : s.sstate = .handshaking → s.waiting.isSome = true ∧ s.env.waitRet ≠ 0) (hd : s.dataReady = true)
    (hv : classify s = .invalid) (ht : tailOk s = false) :
    ∃ u, PollStep p s (abort p u) ∧ u.tx = s.tx ∧ u.cb = s.cb := by
  cases hq : s.sstate with
  | idle => exact absurd hq hs
  | handshaking =>
    obtain ⟨hw, hr⟩ := hwait hq
    exact ⟨_, .noHeader hq hw hr hd (by simp [hv]), rfl, rfl⟩
  | receiving => exact ⟨_, .noPacket hq hd (by simp [hv]), rfl, rfl⟩
  | awaitEot2 => exact ⟨_, .noSecondEnd hq hd (by simp [hv]), rfl, rfl⟩
  | awaitTail => exact ⟨_, .noTail hq hd ht, rfl, rfl⟩

/-- Settles O40: the byte is no control value, and no marker. -/
theorem anUnlistedByteAbortsTheSession : Obligations.AnUnlistedByteAbortsTheSession := by
  intro s rest hs hwait hd h
  have hv : classify ((s.withInput rest).receive [0x00]) = .invalid := classify_receive_short _ (by decide)
  have hmark : ((s.withInput rest).receive [0x00]).marker = 0x00 := State.receive_byte_lt _ _ (by decide)
  have ht : tailOk ((s.withInput rest).receive [0x00]) = false := by
    rw [tailOk, hmark]
    rfl
  obtain ⟨u, hpoll, htx, hcb⟩ :=
    PollStep.abort_of_invalid Config.params (s := (s.withInput rest).receive [0x00]) hs hwait rfl hv ht
  exact ⟨_, _, step_rx_receive h hd (by decide), hpoll.exec_eq, rfl, rfl, rfl, congrArg (· ++ _) htx, hcb⟩

/-- Settles O46: the lone marker leaves the pair in the buffer. -/
theorem loneMarkerOverAStalePairPassesTheTail : Obligations.LoneMarkerOverAStalePairPassesTheTail := by
  intro s rest hs hd h hpair
  have hmark : ((s.withInput rest).receive [Config.soh]).byte 0 = Config.soh := State.receive_byte_lt _ _ (by decide)
  have hstale {a : Nat} (ha : 1 ≤ a) : ((s.withInput rest).receive [Config.soh]).byte a = s.byte a :=
    State.receive_byte_ge _ _ ha
  have ht : tailOk ((s.withInput rest).receive [Config.soh]) = true := by
    rw [tailOk_iff, hstale le_rfl, hstale one_le_two]
    exact ⟨hmark, hpair⟩
  have hpoll := PollStep.finish (p := Config.params) (s := (s.withInput rest).receive [Config.soh]) hs rfl ht
  exact ⟨_, _, step_rx_receive h hd (by decide), hpoll.exec_eq, rfl, rfl, rfl, rfl⟩

end Sys2Proof.Machine
end

section
/-! The proofs of the statements on what each instruction and each step leaves unchanged (10_state.md R20, 20_memory.md R65),
and on the buffer's canonical form. -/

namespace Sys2Proof.Machine

/-! ### POLL -/

/-- No outcome of POLL writes the accumulator, the buffer or the length, or shows a result. -/
theorem PollStep.frame {p : Config.Params} {s t : State} (h : PollStep p s t) :
    t.crc = s.crc ∧ t.buf = s.buf ∧ t.rxLen = s.rxLen ∧ t.results = s.results ∧ t.env = s.env ∧ t.input = s.input := by
  cases h <;> simp

/-! ### The buffer (R58, R65) -/

theorem exec_port_buffer {i : Instr} {w : PortWord} {s t : State} (hi : encode i = .port w) (h : exec i s = .next t) :
    t.buf = s.buf ∧ t.rxLen = s.rxLen := by
  rcases exec_port_cases hi h with rfl | rfl | ⟨r, rfl⟩ | ⟨c, r, rfl⟩ | ⟨n, r, -, rfl⟩
  · exact ⟨rfl, rfl⟩
  · obtain ⟨-, hbuf, hlen, -⟩ := (poll_step Config.params s).frame
    exact ⟨hbuf, hlen⟩
  · exact ⟨rfl, rfl⟩
  · exact ⟨rfl, rfl⟩
  · exact ⟨rfl, rfl⟩

theorem stimulate_buffer {x : Stimulus} {s t : State} (h : stimulate x s = .next t) (hrx : ∀ bytes, x ≠ .rx bytes)
    (hreset : x ≠ .reset) : t.buf = s.buf ∧ t.rxLen = s.rxLen := by
  rcases stimulate_next h with ⟨w, env, i, -, -, hi, ht⟩ | ⟨env, -, -, rfl⟩ | ⟨bytes, hx, -⟩ | ⟨-, rfl⟩ | ⟨-, rfl⟩ | ⟨hx, -⟩
  · obtain ⟨v, hv⟩ := encode_of_decodePort hi
    exact exec_port_buffer (s := s.withEnv env) hv ht
  · obtain ⟨-, hbuf, hlen, -⟩ := (poll_step Config.params (s.withEnv env)).frame
    exact ⟨hbuf, hlen⟩
  · exact absurd hx (hrx bytes)
  · exact ⟨rfl, rfl⟩
  · exact ⟨rfl, rfl⟩
  · exact absurd hx hreset

theorem State.byte_congr {s t : State} (h : t.buf = s.buf) (a : Nat) : t.byte a = s.byte a :=
  congrArg (Memory.read · a) h

/-- Settles O48: the other stimuli leave the buffer itself alone. -/
theorem onlyTheAdapterWritesTheBuffer : Obligations.OnlyTheAdapterWritesTheBuffer := by
  intro s t h hrx hreset
  cases hin : s.input with
  | nil =>
    rw [step_nil hin] at h
    cases h
    exact ⟨rfl, fun _ => rfl⟩
  | cons x xs =>
    simp only [hin, List.head?_cons, ne_eq, Option.some.injEq] at hrx hreset
    obtain ⟨hbuf, hlen⟩ := stimulate_buffer (step_cons hin ▸ h) hrx hreset
    exact ⟨hlen, State.byte_congr hbuf⟩

/-! ### All instructions -/

/-- Settles O49: by the state each instruction answers, and POLL's frame. -/
theorem eachElementHasItsWriters : Obligations.EachElementHasItsWriters := by
  intro i s t h
  cases i with
  | nop | frame | classify | tailchk | crcClr | crcUpd _ =>
    cases h
    simp [Instr.mnemonic]
  | crcBlk off n =>
    rw [exec, execCrcBlk] at h
    split at h
    · cases h
      simp [Instr.mnemonic]
    · cases h
  | hdrx =>
    cases hn : plen s.marker with
    | none => rw [exec_hdrx_refused hn] at h; cases h
    | some n =>
      rw [exec_hdrx_of_plen hn] at h
      cases h
      simp [Instr.mnemonic, State.showHeader]
  | poll =>
    cases h
    obtain ⟨hcrc, hbuf, hlen, hres, henv, hin⟩ := (poll_step Config.params s).frame
    simp [Instr.mnemonic, hcrc, hlen, hres, henv, hin, State.byte_congr hbuf]
  | eot _ | ack _ | nak _ | can _ | crq _ | abort1 _ | abort2 _ | soh _ _ _ | stx _ _ _ =>
    rw [exec_unit rfl] at h
    obtain ⟨-, -, rfl⟩ := deliver_next_iff.mp h
    simp [Instr.mnemonic, encode]

/-! ### The canonical form (10_state.md R22) -/

theorem Memory.read_of_mem {m : Memory} (h : m.wf) {c : Host.Cell} (hc : c ∈ m) : m.read c.1 = c.2 := by
  obtain ⟨l, r, rfl⟩ := List.append_of_mem hc
  have hbelow : ∀ d ∈ l, d.1 < c.1 := fun d hd => (List.pairwise_append.mp h.1).2.2 d hd c List.mem_cons_self
  rw [Memory.read_append_below hbelow]
  simp [Memory.read, Memory.seek, Memory.headAt]

theorem Memory.mem_of_read_ne {m : Memory} {a : Nat} (h : m.read a ≠ Memory.unlisted) : (a, m.read a) ∈ m := by
  rw [Memory.read] at h ⊢
  cases hseek : m.seek a with
  | nil => simp [hseek, Memory.headAt] at h
  | cons c l =>
    have hmem : c ∈ m := (List.dropWhile_sublist _).subset (hseek ▸ List.mem_cons_self)
    by_cases hc : c.1 = a
    · simpa [Memory.headAt, ← hc] using hmem
    · simp [hseek, Memory.headAt, hc] at h

/-- A memory in canonical form lists exactly what it reads as. -/
theorem Memory.mem_iff {m : Memory} (h : m.wf) (c : Host.Cell) : c ∈ m ↔ m.read c.1 = c.2 ∧ c.2 ≠ Memory.unlisted := by
  refine ⟨fun hc => ⟨Memory.read_of_mem h hc, (h.2 c hc).1⟩, fun ⟨hread, hne⟩ => ?_⟩
  have hmem := Memory.mem_of_read_ne (hread.trans_ne hne)
  rwa [hread] at hmem

/-- Settles O50: the two list the same cells, each in the order of their offsets. -/
theorem buffersThatReadAlikeAreEqual : Obligations.BuffersThatReadAlikeAreEqual := by
  intro m m' h h' hread
  have : Std.Irrefl fun c d : Host.Cell => c.1 < d.1 := ⟨fun c => lt_irrefl c.1⟩
  have : Std.Antisymm fun c d : Host.Cell => c.1 < d.1 := ⟨fun _ _ hcd hdc => absurd hcd hdc.asymm⟩
  refine List.Pairwise.eq_of_mem_iff h.1 h'.1 fun c => ?_
  rw [Memory.mem_iff h, Memory.mem_iff h', hread]

/-! ### The port's outputs (R40) -/

/-- The state with other outputs shown before. -/
def State.withResults (s : State) (rs : List Result) : State := { s with results := rs }

theorem classify_withResults (s : State) (rs : List Result) : classify (s.withResults rs) = classify s :=
  classify_congr rfl rfl

theorem tailOk_withResults (s : State) (rs : List Result) : tailOk (s.withResults rs) = tailOk s := tailOk_congr rfl

/-- Two outcomes that show the same one output or none, the first behind `before` and the second behind `shown`, and are
otherwise the same. -/
inductive SameOutput (before shown : List Result) :
    Host.Outcome State Fault Refusal → Host.Outcome State Fault Refusal → Prop where
  | silent {t : State} (ht : t.results = before) : SameOutput before shown (.next t) (.next (t.withResults shown))
  | shows {t : State} {r : Result} (ht : t.results = before) :
      SameOutput before shown (.next (t.emit r)) (.next ((t.withResults shown).emit r))
  | refused (r : Refusal) : SameOutput before shown (.refused r) (.refused r)

section
variable (s : State) (rs : List Result)

theorem State.withResults_endWait : (s.withResults rs).endWait = s.endWait.withResults rs := rfl
theorem State.withResults_consume : (s.withResults rs).consume = s.consume.withResults rs := rfl
theorem State.withResults_setHeader (nm : List Byte) (size : Word32) :
    (s.withResults rs).setHeader nm size = (s.setHeader nm size).withResults rs := rfl
theorem State.withResults_call (c : Callback) : (s.withResults rs).call c = (s.call c).withResults rs := rfl
theorem State.withResults_openMeta : (s.withResults rs).openMeta = s.openMeta.withResults rs := rfl
theorem State.withResults_transmit (bs : List Byte) :
    (s.withResults rs).transmit bs = (s.transmit bs).withResults rs := rfl
theorem State.withResults_goto (q : SState) : (s.withResults rs).goto q = (s.goto q).withResults rs := rfl

end

theorem PollStep.withResults {p : Config.Params} {s t : State} (h : PollStep p s t) (rs : List Result) :
    PollStep p (s.withResults rs) (t.withResults rs) := by
  have hv := classify_withResults s rs
  have ht := tailOk_withResults s rs
  cases h with
  | quiet hs hen => exact .quiet hs hen
  | start hs hen => exact .start hs hen
  | request hs hw => exact .request hs hw
  | skip hs hw hr => exact .skip hs hw hr
  | waitAbort hs hw hr hz => exact .waitAbort hs hw hr hz
  | header hs hw hr hd hc =>
    have hpay : (s.withResults rs).payload Config.p128 = s.payload Config.p128 := rfl
    have hheader := PollStep.header (p := p) (s := s.withResults rs) hs hw hr hd (hv.trans hc)
    rw [hpay, State.withResults_endWait, State.withResults_consume, State.withResults_setHeader, State.withResults_call,
      State.withResults_openMeta, State.withResults_transmit, State.withResults_goto] at hheader
    exact hheader
  | noHeader hs hw hr hd hc => exact .noHeader hs hw hr hd (hv.trans_ne hc)
  | noUnit hs hd => exact .noUnit hs hd
  | packet n hs hd hc => exact .packet n hs hd (hv ▸ hc)
  | firstEnd hs hd hc => exact .firstEnd hs hd (hv.trans hc)
  | noPacket hs hd hc => exact .noPacket hs hd (hv ▸ hc)
  | secondEnd hs hd hc => exact .secondEnd hs hd (hv.trans hc)
  | noSecondEnd hs hd hc => exact .noSecondEnd hs hd (hv.trans_ne hc)
  | finish hs hd hc => exact .finish hs hd (ht.trans hc)
  | noTail hs hd hc => exact .noTail hs hd (ht.trans hc)

theorem exec_poll_sameOutput (s : State) (shown : List Result) :
    SameOutput s.results shown (exec .poll s) (exec .poll (s.withResults shown)) := by
  have hstep := poll_step Config.params s
  obtain ⟨-, -, -, hres, -⟩ := hstep.frame
  rw [(hstep.withResults shown).exec_eq]
  exact .silent hres

theorem deliver_sameOutput (bytes : List Byte) (s : State) (shown : List Result) :
    SameOutput s.results shown (deliver bytes s) (deliver bytes (s.withResults shown)) := by
  have hready : (s.withResults shown).dataReady = s.dataReady := rfl
  unfold deliver
  rw [hready]
  split_ifs
  · exact .refused _
  · exact .refused _
  · exact .silent rfl

theorem exec_sameOutput (i : Instr) (s : State) (shown : List Result) :
    SameOutput s.results shown (exec i s) (exec i (s.withResults shown)) := by
  cases i with
  | nop => exact .silent rfl
  | crcClr => exact .shows (t := s.setCrc _) rfl
  | crcUpd din => exact .shows (t := s.setCrc _) rfl
  | frame => exact .shows rfl
  | classify =>
    rw [exec_classify, exec_classify, classify_withResults]
    exact .shows rfl
  | tailchk =>
    rw [exec_tailchk, exec_tailchk, tailOk_withResults]
    exact .shows rfl
  | crcBlk off n =>
    rw [exec, execCrcBlk, exec, execCrcBlk]
    split_ifs
    · exact .shows (t := s.setCrc _) rfl
    · exact .refused _
  | hdrx =>
    cases hn : plen s.marker with
    | none =>
      rw [exec_hdrx_refused hn, exec_hdrx_refused (s := s.withResults shown) hn]
      exact .refused _
    | some n =>
      rw [exec_hdrx_of_plen hn, exec_hdrx_of_plen (s := s.withResults shown) hn]
      exact .shows (t := (s.setHeader _ _).call _) rfl
  | poll => exact exec_poll_sameOutput s shown
  | eot _ | ack _ | nak _ | can _ | crq _ | abort1 _ | abort2 _ | soh _ _ _ | stx _ _ _ => exact deliver_sameOutput _ s shown

theorem stimulate_sameOutput {x : Stimulus} (hx : x ≠ .reset) (s : State) (shown : List Result) :
    SameOutput s.results shown (stimulate x s) (stimulate x (s.withResults shown)) := by
  cases x with
  | op w env =>
    have hwait : ((s.withResults shown).withEnv env).waiting = (s.withEnv env).waiting := rfl
    rw [stimulate, stimulate, issue, issue, hwait]
    split_ifs
    · exact .refused _
    · cases decode (.port w) with
      | ok i => exact exec_sameOutput i (s.withEnv env) shown
      | error _ => exact .refused _
  | waitReturn env =>
    have hwait : ((s.withResults shown).withEnv env).waiting = (s.withEnv env).waiting := rfl
    rw [stimulate, stimulate, resume, resume, hwait]
    split_ifs
    · exact exec_poll_sameOutput (s.withEnv env) shown
    · exact .refused _
  | rx bytes =>
    rw [stimulate, stimulate, arrive_eq, arrive_eq]
    exact deliver_sameOutput bytes s shown
  | enable => exact .silent (t := s.setSessionEn true) rfl
  | disable => exact .silent (t := s.setSessionEn false) rfl
  | reset => exact absurd rfl hx

theorem step_sameOutput (s : State) (shown : List Result) (hreset : s.input.head? ≠ some .reset) :
    SameOutput s.results shown (step s) (step (s.withResults shown)) := by
  cases hin : s.input with
  | nil =>
    rw [step_nil hin, step_nil (s := s.withResults shown) hin]
    exact .silent rfl
  | cons x xs =>
    rw [step_cons hin, step_cons (s := s.withResults shown) hin]
    have hx : x ≠ .reset := by simpa [hin] using hreset
    exact stimulate_sameOutput hx (s.withInput xs) shown

section
variable {before shown : List Result} {o : Host.Outcome State Fault Refusal}

theorem SameOutput.of_next {t : State} (h : SameOutput before shown (.next t) o) :
    ∃ out, out.length ≤ 1 ∧ t.results = before ++ out ∧ o = .next (t.withResults (shown ++ out)) := by
  cases h with
  | silent ht => exact ⟨[], zero_le_one, by rw [ht, List.append_nil], by rw [List.append_nil]⟩
  | @shows t r ht => exact ⟨[r], le_rfl, congrArg (· ++ [r]) ht, rfl⟩

theorem SameOutput.of_refused {r : Refusal} (h : SameOutput before shown (.refused r) o) : o = .refused r := by
  cases h
  rfl

end

theorem step_of_head_reset {s : State} (h : s.input.head? = some .reset) :
    ∃ rest, s.input = .reset :: rest ∧ step s = .next (s.withInput rest).resetNow := by
  obtain ⟨rest, hin⟩ := List.head?_eq_some_iff.mp h
  exact ⟨rest, hin, step_reset hin⟩

/-- Settles O54: reset forgets the outputs, and every other step goes the same way behind any. -/
theorem portOutputsAreNotLatched : Obligations.PortOutputsAreNotLatched := by
  refine fun s shown => ⟨fun t h hreset => ?_, fun t h hreset => ?_, fun r h => ?_⟩
  · obtain ⟨rest, hin, hstep⟩ := step_of_head_reset hreset
    rw [hstep] at h
    cases h
    exact ⟨step_reset (s := s.withResults shown) hin, rfl⟩
  · exact (h ▸ step_sameOutput s shown hreset).of_next
  · have hreset : s.input.head? ≠ some .reset := fun hreset => by
      obtain ⟨rest, -, hstep⟩ := step_of_head_reset hreset
      rw [hstep] at h
      cases h
    exact (h ▸ step_sameOutput s shown hreset).of_refused

end Sys2Proof.Machine
end
